-- ==== Sys2Proof/Word.lean ====
section
/-! DEFINITION. The two widths of the machine (R2, R3): bytes and 16-bit values. -/

namespace Sys2Proof

/-- An 8-bit value: a register but `PC`, a memory byte, an operand byte (R2, R10, R42). -/
abbrev Byte := BitVec 8

/-- A 16-bit value: `PC`, an address, a two-byte operand (R2, R10, R42). -/
abbrev Word := BitVec 16

end Sys2Proof
end

