-- ==== Sys2Proof/Syntax.lean ====
section
/-! DEFINITION. The instructions as syntax: one constructor for each of the 151 rows of spec/opcode_table.json (R66), and the
assembler line (mnemonic, mode, operand) a row stands for, which is what can be ill-formed. -/

namespace Sys2Proof

/-- The 56 operations (R66). -/
inductive Mnemonic
  | adc | sbc | and | ora | eor | asl | lsr | rol | ror | cmp | cpx | cpy | bit | inc
  | dec | inx | iny | dex | dey | lda | ldx | ldy | sta | stx | sty | tax | txa | tay
  | tya | tsx | txs | bcc | bcs | bne | beq | bpl | bmi | bvc | bvs | jmp | jsr | rts
  | brk | rti | pha | pla | php | plp | clc | sec | cld | sed | cli | sei | clv | nop
deriving DecidableEq, Repr

/-- The 15 mode identifiers (R62). -/
inductive Mode
  | imp | acc | imm | rel | pad | zp | zpx | zpy | abs | absx | absy | imm16 | ind16 | indx | indy
deriving DecidableEq, Repr

/-- The operand bytes of a mode (R62); for `pad` the byte is skipped, not read (R190). -/
def Mode.operandBytes : Mode → Nat
  | .imp | .acc => 0
  | .imm | .rel | .pad | .zp | .zpx | .zpy | .indx | .indy => 1
  | .imm16 | .abs | .absx | .absy | .ind16 => 2

/-- The length of an instruction: the opcode byte and the mode's operand bytes (R60, R61). -/
def Mode.length (m : Mode) : Nat := 1 + m.operandBytes

/-- An instruction: an operation in one of the modes it takes, with its operand (R66). An 8-bit operand is used whole, a 16-bit
one is `byte2:byte1` (R63). `BRK` has no operand: its padding byte is skipped, not read (R190, D17). -/
inductive Instr
  | adcImm (b : Byte)  -- 69  ADC #$nn  (R100)
  | adcZp (b : Byte)  -- 65  ADC $nn  (R100)
  | adcZpx (b : Byte)  -- 75  ADC $nn,X  (R100)
  | adcAbs (w : Word)  -- 6D  ADC $nnnn  (R100)
  | adcAbsx (w : Word)  -- 7D  ADC $nnnn,X  (R100)
  | adcAbsy (w : Word)  -- 79  ADC $nnnn,Y  (R100)
  | adcIndx (b : Byte)  -- 61  ADC ($nn,X)  (R100)
  | adcIndy (b : Byte)  -- 71  ADC ($nn),Y  (R100)
  | sbcImm (b : Byte)  -- E9  SBC #$nn  (R101)
  | sbcZp (b : Byte)  -- E5  SBC $nn  (R101)
  | sbcZpx (b : Byte)  -- F5  SBC $nn,X  (R101)
  | sbcAbs (w : Word)  -- ED  SBC $nnnn  (R101)
  | sbcAbsx (w : Word)  -- FD  SBC $nnnn,X  (R101)
  | sbcAbsy (w : Word)  -- F9  SBC $nnnn,Y  (R101)
  | sbcIndx (b : Byte)  -- E1  SBC ($nn,X)  (R101)
  | sbcIndy (b : Byte)  -- F1  SBC ($nn),Y  (R101)
  | andImm (b : Byte)  -- 29  AND #$nn  (R110)
  | andZp (b : Byte)  -- 25  AND $nn  (R110)
  | andZpx (b : Byte)  -- 35  AND $nn,X  (R110)
  | andAbs (w : Word)  -- 2D  AND $nnnn  (R110)
  | andAbsx (w : Word)  -- 3D  AND $nnnn,X  (R110)
  | andAbsy (w : Word)  -- 39  AND $nnnn,Y  (R110)
  | andIndx (b : Byte)  -- 21  AND ($nn,X)  (R110)
  | andIndy (b : Byte)  -- 31  AND ($nn),Y  (R110)
  | oraImm (b : Byte)  -- 09  ORA #$nn  (R111)
  | oraZp (b : Byte)  -- 05  ORA $nn  (R111)
  | oraZpx (b : Byte)  -- 15  ORA $nn,X  (R111)
  | oraAbs (w : Word)  -- 0D  ORA $nnnn  (R111)
  | oraAbsx (w : Word)  -- 1D  ORA $nnnn,X  (R111)
  | oraAbsy (w : Word)  -- 19  ORA $nnnn,Y  (R111)
  | oraIndx (b : Byte)  -- 01  ORA ($nn,X)  (R111)
  | oraIndy (b : Byte)  -- 11  ORA ($nn),Y  (R111)
  | eorImm (b : Byte)  -- 49  EOR #$nn  (R112)
  | eorZp (b : Byte)  -- 45  EOR $nn  (R112)
  | eorZpx (b : Byte)  -- 55  EOR $nn,X  (R112)
  | eorAbs (w : Word)  -- 4D  EOR $nnnn  (R112)
  | eorAbsx (w : Word)  -- 5D  EOR $nnnn,X  (R112)
  | eorAbsy (w : Word)  -- 59  EOR $nnnn,Y  (R112)
  | eorIndx (b : Byte)  -- 41  EOR ($nn,X)  (R112)
  | eorIndy (b : Byte)  -- 51  EOR ($nn),Y  (R112)
  | aslAcc  -- 0A  ASL A  (R120)
  | aslZp (b : Byte)  -- 06  ASL $nn  (R120)
  | aslZpx (b : Byte)  -- 16  ASL $nn,X  (R120)
  | aslAbs (w : Word)  -- 0E  ASL $nnnn  (R120)
  | aslAbsx (w : Word)  -- 1E  ASL $nnnn,X  (R120)
  | lsrAcc  -- 4A  LSR A  (R121)
  | lsrZp (b : Byte)  -- 46  LSR $nn  (R121)
  | lsrZpx (b : Byte)  -- 56  LSR $nn,X  (R121)
  | lsrAbs (w : Word)  -- 4E  LSR $nnnn  (R121)
  | lsrAbsx (w : Word)  -- 5E  LSR $nnnn,X  (R121)
  | rolAcc  -- 2A  ROL A  (R122)
  | rolZp (b : Byte)  -- 26  ROL $nn  (R122)
  | rolZpx (b : Byte)  -- 36  ROL $nn,X  (R122)
  | rolAbs (w : Word)  -- 2E  ROL $nnnn  (R122)
  | rolAbsx (w : Word)  -- 3E  ROL $nnnn,X  (R122)
  | rorAcc  -- 6A  ROR A  (R123)
  | rorZp (b : Byte)  -- 66  ROR $nn  (R123)
  | rorZpx (b : Byte)  -- 76  ROR $nn,X  (R123)
  | rorAbs (w : Word)  -- 6E  ROR $nnnn  (R123)
  | rorAbsx (w : Word)  -- 7E  ROR $nnnn,X  (R123)
  | cmpImm (b : Byte)  -- C9  CMP #$nn  (R130)
  | cmpZp (b : Byte)  -- C5  CMP $nn  (R130)
  | cmpZpx (b : Byte)  -- D5  CMP $nn,X  (R130)
  | cmpAbs (w : Word)  -- CD  CMP $nnnn  (R130)
  | cmpAbsx (w : Word)  -- DD  CMP $nnnn,X  (R130)
  | cmpAbsy (w : Word)  -- D9  CMP $nnnn,Y  (R130)
  | cmpIndx (b : Byte)  -- C1  CMP ($nn,X)  (R130)
  | cmpIndy (b : Byte)  -- D1  CMP ($nn),Y  (R130)
  | cpxImm (b : Byte)  -- E0  CPX #$nn  (R131)
  | cpxZp (b : Byte)  -- E4  CPX $nn  (R131)
  | cpxAbs (w : Word)  -- EC  CPX $nnnn  (R131)
  | cpyImm (b : Byte)  -- C0  CPY #$nn  (R132)
  | cpyZp (b : Byte)  -- C4  CPY $nn  (R132)
  | cpyAbs (w : Word)  -- CC  CPY $nnnn  (R132)
  | bitZp (b : Byte)  -- 24  BIT $nn  (R133)
  | bitAbs (w : Word)  -- 2C  BIT $nnnn  (R133)
  | incZp (b : Byte)  -- E6  INC $nn  (R140)
  | incZpx (b : Byte)  -- F6  INC $nn,X  (R140)
  | incAbs (w : Word)  -- EE  INC $nnnn  (R140)
  | incAbsx (w : Word)  -- FE  INC $nnnn,X  (R140)
  | decZp (b : Byte)  -- C6  DEC $nn  (R141)
  | decZpx (b : Byte)  -- D6  DEC $nn,X  (R141)
  | decAbs (w : Word)  -- CE  DEC $nnnn  (R141)
  | decAbsx (w : Word)  -- DE  DEC $nnnn,X  (R141)
  | inx  -- E8  INX  (R142)
  | iny  -- C8  INY  (R143)
  | dex  -- CA  DEX  (R144)
  | dey  -- 88  DEY  (R145)
  | ldaImm (b : Byte)  -- A9  LDA #$nn  (R150)
  | ldaZp (b : Byte)  -- A5  LDA $nn  (R150)
  | ldaZpx (b : Byte)  -- B5  LDA $nn,X  (R150)
  | ldaAbs (w : Word)  -- AD  LDA $nnnn  (R150)
  | ldaAbsx (w : Word)  -- BD  LDA $nnnn,X  (R150)
  | ldaAbsy (w : Word)  -- B9  LDA $nnnn,Y  (R150)
  | ldaIndx (b : Byte)  -- A1  LDA ($nn,X)  (R150)
  | ldaIndy (b : Byte)  -- B1  LDA ($nn),Y  (R150)
  | ldxImm (b : Byte)  -- A2  LDX #$nn  (R151)
  | ldxZp (b : Byte)  -- A6  LDX $nn  (R151)
  | ldxZpy (b : Byte)  -- B6  LDX $nn,Y  (R151)
  | ldxAbs (w : Word)  -- AE  LDX $nnnn  (R151)
  | ldxAbsy (w : Word)  -- BE  LDX $nnnn,Y  (R151)
  | ldyImm (b : Byte)  -- A0  LDY #$nn  (R152)
  | ldyZp (b : Byte)  -- A4  LDY $nn  (R152)
  | ldyZpx (b : Byte)  -- B4  LDY $nn,X  (R152)
  | ldyAbs (w : Word)  -- AC  LDY $nnnn  (R152)
  | ldyAbsx (w : Word)  -- BC  LDY $nnnn,X  (R152)
  | staZp (b : Byte)  -- 85  STA $nn  (R153)
  | staZpx (b : Byte)  -- 95  STA $nn,X  (R153)
  | staAbs (w : Word)  -- 8D  STA $nnnn  (R153)
  | staAbsx (w : Word)  -- 9D  STA $nnnn,X  (R153)
  | staAbsy (w : Word)  -- 99  STA $nnnn,Y  (R153)
  | staIndx (b : Byte)  -- 81  STA ($nn,X)  (R153)
  | staIndy (b : Byte)  -- 91  STA ($nn),Y  (R153)
  | stxZp (b : Byte)  -- 86  STX $nn  (R154)
  | stxZpy (b : Byte)  -- 96  STX $nn,Y  (R154)
  | stxAbs (w : Word)  -- 8E  STX $nnnn  (R154)
  | styZp (b : Byte)  -- 84  STY $nn  (R155)
  | styZpx (b : Byte)  -- 94  STY $nn,X  (R155)
  | styAbs (w : Word)  -- 8C  STY $nnnn  (R155)
  | tax  -- AA  TAX  (R156)
  | txa  -- 8A  TXA  (R157)
  | tay  -- A8  TAY  (R158)
  | tya  -- 98  TYA  (R159)
  | tsx  -- BA  TSX  (R160)
  | txs  -- 9A  TXS  (R161)
  | bcc (d : Byte)  -- 90  BCC label  (R170)
  | bcs (d : Byte)  -- B0  BCS label  (R171)
  | bne (d : Byte)  -- D0  BNE label  (R172)
  | beq (d : Byte)  -- F0  BEQ label  (R173)
  | bpl (d : Byte)  -- 10  BPL label  (R174)
  | bmi (d : Byte)  -- 30  BMI label  (R175)
  | bvc (d : Byte)  -- 50  BVC label  (R176)
  | bvs (d : Byte)  -- 70  BVS label  (R177)
  | jmpAbs (w : Word)  -- 4C  JMP $nnnn  (R180)
  | jmpInd (w : Word)  -- 6C  JMP ($nnnn)  (R180)
  | jsr (w : Word)  -- 20  JSR $nnnn  (R181)
  | rts  -- 60  RTS  (R182)
  | brk  -- 00  BRK  (R190)
  | rti  -- 40  RTI  (R191)
  | pha  -- 48  PHA  (R192)
  | pla  -- 68  PLA  (R193)
  | php  -- 08  PHP  (R194)
  | plp  -- 28  PLP  (R195)
  | clc  -- 18  CLC  (R200)
  | sec  -- 38  SEC  (R201)
  | cld  -- D8  CLD  (R202)
  | sed  -- F8  SED  (R203)
  | cli  -- 58  CLI  (R204)
  | sei  -- 78  SEI  (R205)
  | clv  -- B8  CLV  (R206)
  | nop  -- EA  NOP  (R215)
deriving DecidableEq, Repr

/-- An assembler line: a mnemonic, a mode and the operand as a number, before anything is checked. -/
structure AsmLine where
  mnemonic : Mnemonic
  mode : Mode
  operand : Nat
deriving DecidableEq, Repr

/-- The assembler line an instruction stands for. -/
def Instr.asm : Instr → AsmLine
  | .adcImm b => ⟨.adc, .imm, b.toNat⟩
  | .adcZp b => ⟨.adc, .zp, b.toNat⟩
  | .adcZpx b => ⟨.adc, .zpx, b.toNat⟩
  | .adcAbs w => ⟨.adc, .abs, w.toNat⟩
  | .adcAbsx w => ⟨.adc, .absx, w.toNat⟩
  | .adcAbsy w => ⟨.adc, .absy, w.toNat⟩
  | .adcIndx b => ⟨.adc, .indx, b.toNat⟩
  | .adcIndy b => ⟨.adc, .indy, b.toNat⟩
  | .sbcImm b => ⟨.sbc, .imm, b.toNat⟩
  | .sbcZp b => ⟨.sbc, .zp, b.toNat⟩
  | .sbcZpx b => ⟨.sbc, .zpx, b.toNat⟩
  | .sbcAbs w => ⟨.sbc, .abs, w.toNat⟩
  | .sbcAbsx w => ⟨.sbc, .absx, w.toNat⟩
  | .sbcAbsy w => ⟨.sbc, .absy, w.toNat⟩
  | .sbcIndx b => ⟨.sbc, .indx, b.toNat⟩
  | .sbcIndy b => ⟨.sbc, .indy, b.toNat⟩
  | .andImm b => ⟨.and, .imm, b.toNat⟩
  | .andZp b => ⟨.and, .zp, b.toNat⟩
  | .andZpx b => ⟨.and, .zpx, b.toNat⟩
  | .andAbs w => ⟨.and, .abs, w.toNat⟩
  | .andAbsx w => ⟨.and, .absx, w.toNat⟩
  | .andAbsy w => ⟨.and, .absy, w.toNat⟩
  | .andIndx b => ⟨.and, .indx, b.toNat⟩
  | .andIndy b => ⟨.and, .indy, b.toNat⟩
  | .oraImm b => ⟨.ora, .imm, b.toNat⟩
  | .oraZp b => ⟨.ora, .zp, b.toNat⟩
  | .oraZpx b => ⟨.ora, .zpx, b.toNat⟩
  | .oraAbs w => ⟨.ora, .abs, w.toNat⟩
  | .oraAbsx w => ⟨.ora, .absx, w.toNat⟩
  | .oraAbsy w => ⟨.ora, .absy, w.toNat⟩
  | .oraIndx b => ⟨.ora, .indx, b.toNat⟩
  | .oraIndy b => ⟨.ora, .indy, b.toNat⟩
  | .eorImm b => ⟨.eor, .imm, b.toNat⟩
  | .eorZp b => ⟨.eor, .zp, b.toNat⟩
  | .eorZpx b => ⟨.eor, .zpx, b.toNat⟩
  | .eorAbs w => ⟨.eor, .abs, w.toNat⟩
  | .eorAbsx w => ⟨.eor, .absx, w.toNat⟩
  | .eorAbsy w => ⟨.eor, .absy, w.toNat⟩
  | .eorIndx b => ⟨.eor, .indx, b.toNat⟩
  | .eorIndy b => ⟨.eor, .indy, b.toNat⟩
  | .aslAcc => ⟨.asl, .acc, 0⟩
  | .aslZp b => ⟨.asl, .zp, b.toNat⟩
  | .aslZpx b => ⟨.asl, .zpx, b.toNat⟩
  | .aslAbs w => ⟨.asl, .abs, w.toNat⟩
  | .aslAbsx w => ⟨.asl, .absx, w.toNat⟩
  | .lsrAcc => ⟨.lsr, .acc, 0⟩
  | .lsrZp b => ⟨.lsr, .zp, b.toNat⟩
  | .lsrZpx b => ⟨.lsr, .zpx, b.toNat⟩
  | .lsrAbs w => ⟨.lsr, .abs, w.toNat⟩
  | .lsrAbsx w => ⟨.lsr, .absx, w.toNat⟩
  | .rolAcc => ⟨.rol, .acc, 0⟩
  | .rolZp b => ⟨.rol, .zp, b.toNat⟩
  | .rolZpx b => ⟨.rol, .zpx, b.toNat⟩
  | .rolAbs w => ⟨.rol, .abs, w.toNat⟩
  | .rolAbsx w => ⟨.rol, .absx, w.toNat⟩
  | .rorAcc => ⟨.ror, .acc, 0⟩
  | .rorZp b => ⟨.ror, .zp, b.toNat⟩
  | .rorZpx b => ⟨.ror, .zpx, b.toNat⟩
  | .rorAbs w => ⟨.ror, .abs, w.toNat⟩
  | .rorAbsx w => ⟨.ror, .absx, w.toNat⟩
  | .cmpImm b => ⟨.cmp, .imm, b.toNat⟩
  | .cmpZp b => ⟨.cmp, .zp, b.toNat⟩
  | .cmpZpx b => ⟨.cmp, .zpx, b.toNat⟩
  | .cmpAbs w => ⟨.cmp, .abs, w.toNat⟩
  | .cmpAbsx w => ⟨.cmp, .absx, w.toNat⟩
  | .cmpAbsy w => ⟨.cmp, .absy, w.toNat⟩
  | .cmpIndx b => ⟨.cmp, .indx, b.toNat⟩
  | .cmpIndy b => ⟨.cmp, .indy, b.toNat⟩
  | .cpxImm b => ⟨.cpx, .imm, b.toNat⟩
  | .cpxZp b => ⟨.cpx, .zp, b.toNat⟩
  | .cpxAbs w => ⟨.cpx, .abs, w.toNat⟩
  | .cpyImm b => ⟨.cpy, .imm, b.toNat⟩
  | .cpyZp b => ⟨.cpy, .zp, b.toNat⟩
  | .cpyAbs w => ⟨.cpy, .abs, w.toNat⟩
  | .bitZp b => ⟨.bit, .zp, b.toNat⟩
  | .bitAbs w => ⟨.bit, .abs, w.toNat⟩
  | .incZp b => ⟨.inc, .zp, b.toNat⟩
  | .incZpx b => ⟨.inc, .zpx, b.toNat⟩
  | .incAbs w => ⟨.inc, .abs, w.toNat⟩
  | .incAbsx w => ⟨.inc, .absx, w.toNat⟩
  | .decZp b => ⟨.dec, .zp, b.toNat⟩
  | .decZpx b => ⟨.dec, .zpx, b.toNat⟩
  | .decAbs w => ⟨.dec, .abs, w.toNat⟩
  | .decAbsx w => ⟨.dec, .absx, w.toNat⟩
  | .inx => ⟨.inx, .imp, 0⟩
  | .iny => ⟨.iny, .imp, 0⟩
  | .dex => ⟨.dex, .imp, 0⟩
  | .dey => ⟨.dey, .imp, 0⟩
  | .ldaImm b => ⟨.lda, .imm, b.toNat⟩
  | .ldaZp b => ⟨.lda, .zp, b.toNat⟩
  | .ldaZpx b => ⟨.lda, .zpx, b.toNat⟩
  | .ldaAbs w => ⟨.lda, .abs, w.toNat⟩
  | .ldaAbsx w => ⟨.lda, .absx, w.toNat⟩
  | .ldaAbsy w => ⟨.lda, .absy, w.toNat⟩
  | .ldaIndx b => ⟨.lda, .indx, b.toNat⟩
  | .ldaIndy b => ⟨.lda, .indy, b.toNat⟩
  | .ldxImm b => ⟨.ldx, .imm, b.toNat⟩
  | .ldxZp b => ⟨.ldx, .zp, b.toNat⟩
  | .ldxZpy b => ⟨.ldx, .zpy, b.toNat⟩
  | .ldxAbs w => ⟨.ldx, .abs, w.toNat⟩
  | .ldxAbsy w => ⟨.ldx, .absy, w.toNat⟩
  | .ldyImm b => ⟨.ldy, .imm, b.toNat⟩
  | .ldyZp b => ⟨.ldy, .zp, b.toNat⟩
  | .ldyZpx b => ⟨.ldy, .zpx, b.toNat⟩
  | .ldyAbs w => ⟨.ldy, .abs, w.toNat⟩
  | .ldyAbsx w => ⟨.ldy, .absx, w.toNat⟩
  | .staZp b => ⟨.sta, .zp, b.toNat⟩
  | .staZpx b => ⟨.sta, .zpx, b.toNat⟩
  | .staAbs w => ⟨.sta, .abs, w.toNat⟩
  | .staAbsx w => ⟨.sta, .absx, w.toNat⟩
  | .staAbsy w => ⟨.sta, .absy, w.toNat⟩
  | .staIndx b => ⟨.sta, .indx, b.toNat⟩
  | .staIndy b => ⟨.sta, .indy, b.toNat⟩
  | .stxZp b => ⟨.stx, .zp, b.toNat⟩
  | .stxZpy b => ⟨.stx, .zpy, b.toNat⟩
  | .stxAbs w => ⟨.stx, .abs, w.toNat⟩
  | .styZp b => ⟨.sty, .zp, b.toNat⟩
  | .styZpx b => ⟨.sty, .zpx, b.toNat⟩
  | .styAbs w => ⟨.sty, .abs, w.toNat⟩
  | .tax => ⟨.tax, .imp, 0⟩
  | .txa => ⟨.txa, .imp, 0⟩
  | .tay => ⟨.tay, .imp, 0⟩
  | .tya => ⟨.tya, .imp, 0⟩
  | .tsx => ⟨.tsx, .imp, 0⟩
  | .txs => ⟨.txs, .imp, 0⟩
  | .bcc d => ⟨.bcc, .rel, d.toNat⟩
  | .bcs d => ⟨.bcs, .rel, d.toNat⟩
  | .bne d => ⟨.bne, .rel, d.toNat⟩
  | .beq d => ⟨.beq, .rel, d.toNat⟩
  | .bpl d => ⟨.bpl, .rel, d.toNat⟩
  | .bmi d => ⟨.bmi, .rel, d.toNat⟩
  | .bvc d => ⟨.bvc, .rel, d.toNat⟩
  | .bvs d => ⟨.bvs, .rel, d.toNat⟩
  | .jmpAbs w => ⟨.jmp, .imm16, w.toNat⟩
  | .jmpInd w => ⟨.jmp, .ind16, w.toNat⟩
  | .jsr w => ⟨.jsr, .imm16, w.toNat⟩
  | .rts => ⟨.rts, .imp, 0⟩
  | .brk => ⟨.brk, .pad, 0⟩
  | .rti => ⟨.rti, .imp, 0⟩
  | .pha => ⟨.pha, .imp, 0⟩
  | .pla => ⟨.pla, .imp, 0⟩
  | .php => ⟨.php, .imp, 0⟩
  | .plp => ⟨.plp, .imp, 0⟩
  | .clc => ⟨.clc, .imp, 0⟩
  | .sec => ⟨.sec, .imp, 0⟩
  | .cld => ⟨.cld, .imp, 0⟩
  | .sed => ⟨.sed, .imp, 0⟩
  | .cli => ⟨.cli, .imp, 0⟩
  | .sei => ⟨.sei, .imp, 0⟩
  | .clv => ⟨.clv, .imp, 0⟩
  | .nop => ⟨.nop, .imp, 0⟩

/-- The length in bytes of an instruction (R60, R69); `BRK` counts its padding byte. -/
def Instr.length (i : Instr) : Nat := i.asm.mode.length

/-- The bytes `Fetch8` consumes before the operation starts: the length, but for `BRK` only the opcode, whose operation skips the
padding byte itself (R190, R22). -/
def Instr.fetched (i : Instr) : Nat := if i.asm.mode = .pad then 1 else i.length

end Sys2Proof
end

