-- ==== Sys2Proof/WellFormed.lean ====
section
/-! DEFINITION. Well-formedness: the pairing of operation and mode is one of the opcode map (R66, D2), and the operand fits the
mode's operand bytes (R61, R63). Every operand value that fits is legal (R68). -/

namespace Sys2Proof

/-- The modes an operation takes: the row of R66's table. -/
def Mnemonic.modes : Mnemonic → List Mode
  | .adc | .sbc | .and | .ora | .eor | .cmp | .lda
      => [.imm, .zp, .zpx, .abs, .absx, .absy, .indx, .indy]
  | .asl | .lsr | .rol | .ror => [.acc, .zp, .zpx, .abs, .absx]
  | .cpx | .cpy => [.imm, .zp, .abs]
  | .bit => [.zp, .abs]
  | .inc | .dec => [.zp, .zpx, .abs, .absx]
  | .inx | .iny | .dex | .dey | .tax | .txa | .tay | .tya | .tsx | .txs | .rts | .rti | .pha | .pla | .php | .plp | .clc | .sec | .cld | .sed | .cli | .sei | .clv | .nop
      => [.imp]
  | .ldx => [.imm, .zp, .zpy, .abs, .absy]
  | .ldy => [.imm, .zp, .zpx, .abs, .absx]
  | .sta => [.zp, .zpx, .abs, .absx, .absy, .indx, .indy]
  | .stx => [.zp, .zpy, .abs]
  | .sty => [.zp, .zpx, .abs]
  | .bcc | .bcs | .bne | .beq | .bpl | .bmi | .bvc | .bvs
      => [.rel]
  | .jmp => [.imm16, .ind16]
  | .jsr => [.imm16]
  | .brk => [.pad]

/-- The operation takes the mode (R66). -/
def AsmLine.pairingOk (l : AsmLine) : Bool := l.mnemonic.modes.contains l.mode

/-- The operand fits the mode's operand bytes (R61). -/
def AsmLine.operandOk (l : AsmLine) : Bool := decide (l.operand < 256 ^ l.mode.operandBytes)

/-- Both checks. -/
def AsmLine.wellFormed (l : AsmLine) : Bool := l.pairingOk && l.operandOk

/-- An instruction is well formed when its assembler line is. The constructors and the widths of their operands already force it
(log 6). -/
def Instr.wellFormed (i : Instr) : Bool := i.asm.wellFormed

end Sys2Proof
end

