-- ==== Sys2Proof/Decode.lean ====
section
/-! DEFINITION. Decoding and encoding. The decoder looks the opcode byte up (R65) in the 256-entry map written from
spec/opcode_table.json; the encoder is written from R66's own table in spec/30_encoding.md. -/

namespace Sys2Proof

/-- `hi:lo`, the two bytes of a little-endian quantity as one value (R3, R43). -/
def mkWord (lo hi : Byte) : Word := hi ++ lo

/-- `w[7:0]`. -/
def loByte (w : Word) : Byte := w.extractLsb' 0 8

/-- `w[15:8]`. -/
def hiByte (w : Word) : Byte := w.extractLsb' 8 8

/-- What an opcode byte selects: an instruction of format OP, one of format OP_B or OP_W that waits for its operand (R61), the break
with its padding byte (R190), or nothing (R67). -/
inductive Pattern
  | op (i : Instr)
  | opB (mk : Byte → Instr)
  | opW (mk : Word → Instr)
  | opPad (i : Instr)
  | unmapped

/-- The opcode map: one arm for each row of spec/opcode_table.json, in its order; every other byte is unmapped (R65 to R67). -/
def pattern (op : Byte) : Pattern :=
  match op.toNat with
  | 0x00 => .opPad .brk
  | 0x01 => .opB .oraIndx
  | 0x05 => .opB .oraZp
  | 0x06 => .opB .aslZp
  | 0x08 => .op .php
  | 0x09 => .opB .oraImm
  | 0x0A => .op .aslAcc
  | 0x0D => .opW .oraAbs
  | 0x0E => .opW .aslAbs
  | 0x10 => .opB .bpl
  | 0x11 => .opB .oraIndy
  | 0x15 => .opB .oraZpx
  | 0x16 => .opB .aslZpx
  | 0x18 => .op .clc
  | 0x19 => .opW .oraAbsy
  | 0x1D => .opW .oraAbsx
  | 0x1E => .opW .aslAbsx
  | 0x20 => .opW .jsr
  | 0x21 => .opB .andIndx
  | 0x24 => .opB .bitZp
  | 0x25 => .opB .andZp
  | 0x26 => .opB .rolZp
  | 0x28 => .op .plp
  | 0x29 => .opB .andImm
  | 0x2A => .op .rolAcc
  | 0x2C => .opW .bitAbs
  | 0x2D => .opW .andAbs
  | 0x2E => .opW .rolAbs
  | 0x30 => .opB .bmi
  | 0x31 => .opB .andIndy
  | 0x35 => .opB .andZpx
  | 0x36 => .opB .rolZpx
  | 0x38 => .op .sec
  | 0x39 => .opW .andAbsy
  | 0x3D => .opW .andAbsx
  | 0x3E => .opW .rolAbsx
  | 0x40 => .op .rti
  | 0x41 => .opB .eorIndx
  | 0x45 => .opB .eorZp
  | 0x46 => .opB .lsrZp
  | 0x48 => .op .pha
  | 0x49 => .opB .eorImm
  | 0x4A => .op .lsrAcc
  | 0x4C => .opW .jmpAbs
  | 0x4D => .opW .eorAbs
  | 0x4E => .opW .lsrAbs
  | 0x50 => .opB .bvc
  | 0x51 => .opB .eorIndy
  | 0x55 => .opB .eorZpx
  | 0x56 => .opB .lsrZpx
  | 0x58 => .op .cli
  | 0x59 => .opW .eorAbsy
  | 0x5D => .opW .eorAbsx
  | 0x5E => .opW .lsrAbsx
  | 0x60 => .op .rts
  | 0x61 => .opB .adcIndx
  | 0x65 => .opB .adcZp
  | 0x66 => .opB .rorZp
  | 0x68 => .op .pla
  | 0x69 => .opB .adcImm
  | 0x6A => .op .rorAcc
  | 0x6C => .opW .jmpInd
  | 0x6D => .opW .adcAbs
  | 0x6E => .opW .rorAbs
  | 0x70 => .opB .bvs
  | 0x71 => .opB .adcIndy
  | 0x75 => .opB .adcZpx
  | 0x76 => .opB .rorZpx
  | 0x78 => .op .sei
  | 0x79 => .opW .adcAbsy
  | 0x7D => .opW .adcAbsx
  | 0x7E => .opW .rorAbsx
  | 0x81 => .opB .staIndx
  | 0x84 => .opB .styZp
  | 0x85 => .opB .staZp
  | 0x86 => .opB .stxZp
  | 0x88 => .op .dey
  | 0x8A => .op .txa
  | 0x8C => .opW .styAbs
  | 0x8D => .opW .staAbs
  | 0x8E => .opW .stxAbs
  | 0x90 => .opB .bcc
  | 0x91 => .opB .staIndy
  | 0x94 => .opB .styZpx
  | 0x95 => .opB .staZpx
  | 0x96 => .opB .stxZpy
  | 0x98 => .op .tya
  | 0x99 => .opW .staAbsy
  | 0x9A => .op .txs
  | 0x9D => .opW .staAbsx
  | 0xA0 => .opB .ldyImm
  | 0xA1 => .opB .ldaIndx
  | 0xA2 => .opB .ldxImm
  | 0xA4 => .opB .ldyZp
  | 0xA5 => .opB .ldaZp
  | 0xA6 => .opB .ldxZp
  | 0xA8 => .op .tay
  | 0xA9 => .opB .ldaImm
  | 0xAA => .op .tax
  | 0xAC => .opW .ldyAbs
  | 0xAD => .opW .ldaAbs
  | 0xAE => .opW .ldxAbs
  | 0xB0 => .opB .bcs
  | 0xB1 => .opB .ldaIndy
  | 0xB4 => .opB .ldyZpx
  | 0xB5 => .opB .ldaZpx
  | 0xB6 => .opB .ldxZpy
  | 0xB8 => .op .clv
  | 0xB9 => .opW .ldaAbsy
  | 0xBA => .op .tsx
  | 0xBC => .opW .ldyAbsx
  | 0xBD => .opW .ldaAbsx
  | 0xBE => .opW .ldxAbsy
  | 0xC0 => .opB .cpyImm
  | 0xC1 => .opB .cmpIndx
  | 0xC4 => .opB .cpyZp
  | 0xC5 => .opB .cmpZp
  | 0xC6 => .opB .decZp
  | 0xC8 => .op .iny
  | 0xC9 => .opB .cmpImm
  | 0xCA => .op .dex
  | 0xCC => .opW .cpyAbs
  | 0xCD => .opW .cmpAbs
  | 0xCE => .opW .decAbs
  | 0xD0 => .opB .bne
  | 0xD1 => .opB .cmpIndy
  | 0xD5 => .opB .cmpZpx
  | 0xD6 => .opB .decZpx
  | 0xD8 => .op .cld
  | 0xD9 => .opW .cmpAbsy
  | 0xDD => .opW .cmpAbsx
  | 0xDE => .opW .decAbsx
  | 0xE0 => .opB .cpxImm
  | 0xE1 => .opB .sbcIndx
  | 0xE4 => .opB .cpxZp
  | 0xE5 => .opB .sbcZp
  | 0xE6 => .opB .incZp
  | 0xE8 => .op .inx
  | 0xE9 => .opB .sbcImm
  | 0xEA => .op .nop
  | 0xEC => .opW .cpxAbs
  | 0xED => .opW .sbcAbs
  | 0xEE => .opW .incAbs
  | 0xF0 => .opB .beq
  | 0xF1 => .opB .sbcIndy
  | 0xF5 => .opB .sbcZpx
  | 0xF6 => .opB .incZpx
  | 0xF8 => .op .sed
  | 0xF9 => .opW .sbcAbsy
  | 0xFD => .opW .sbcAbsx
  | 0xFE => .opW .incAbsx
  | _ => .unmapped

/-- The outcome of decoding a list of bytes. -/
inductive Decoded
  /-- The instruction, and the bytes after it. -/
  | instr (i : Instr) (rest : List Byte)
  /-- The first byte is unmapped (R67): rejected by its value. -/
  | unmapped (op : Byte)
  /-- The list ends inside the instruction. The machine never meets this: its memory has no end. -/
  | truncated
deriving DecidableEq, Repr

/-- Decode the instruction at the head of a list of bytes: the opcode byte alone fixes format and length (R60, R65, R69). The padding
byte of `BRK` is dropped unread (R190). -/
def decode : List Byte → Decoded
  | [] => .truncated
  | op :: rest =>
    match pattern op with
    | .op i => .instr i rest
    | .opPad i => .instr i (rest.drop 1)
    | .opB form =>
      match rest with
      | b :: rest => .instr (form b) rest
      | [] => .truncated
    | .opW form =>
      match rest with
      | lo :: hi :: rest => .instr (form (mkWord lo hi)) rest
      | _ => .truncated
    | .unmapped => .unmapped op

/-- The bytes of an instruction in memory order, with `pad` as the padding byte of `BRK` (R61, R63, R66). -/
def encodeWith (pad : Byte) : Instr → List Byte
  | .adcImm b => [0x69, b]
  | .adcZp b => [0x65, b]
  | .adcZpx b => [0x75, b]
  | .adcAbs w => [0x6D, loByte w, hiByte w]
  | .adcAbsx w => [0x7D, loByte w, hiByte w]
  | .adcAbsy w => [0x79, loByte w, hiByte w]
  | .adcIndx b => [0x61, b]
  | .adcIndy b => [0x71, b]
  | .sbcImm b => [0xE9, b]
  | .sbcZp b => [0xE5, b]
  | .sbcZpx b => [0xF5, b]
  | .sbcAbs w => [0xED, loByte w, hiByte w]
  | .sbcAbsx w => [0xFD, loByte w, hiByte w]
  | .sbcAbsy w => [0xF9, loByte w, hiByte w]
  | .sbcIndx b => [0xE1, b]
  | .sbcIndy b => [0xF1, b]
  | .andImm b => [0x29, b]
  | .andZp b => [0x25, b]
  | .andZpx b => [0x35, b]
  | .andAbs w => [0x2D, loByte w, hiByte w]
  | .andAbsx w => [0x3D, loByte w, hiByte w]
  | .andAbsy w => [0x39, loByte w, hiByte w]
  | .andIndx b => [0x21, b]
  | .andIndy b => [0x31, b]
  | .oraImm b => [0x09, b]
  | .oraZp b => [0x05, b]
  | .oraZpx b => [0x15, b]
  | .oraAbs w => [0x0D, loByte w, hiByte w]
  | .oraAbsx w => [0x1D, loByte w, hiByte w]
  | .oraAbsy w => [0x19, loByte w, hiByte w]
  | .oraIndx b => [0x01, b]
  | .oraIndy b => [0x11, b]
  | .eorImm b => [0x49, b]
  | .eorZp b => [0x45, b]
  | .eorZpx b => [0x55, b]
  | .eorAbs w => [0x4D, loByte w, hiByte w]
  | .eorAbsx w => [0x5D, loByte w, hiByte w]
  | .eorAbsy w => [0x59, loByte w, hiByte w]
  | .eorIndx b => [0x41, b]
  | .eorIndy b => [0x51, b]
  | .aslAcc => [0x0A]
  | .aslZp b => [0x06, b]
  | .aslZpx b => [0x16, b]
  | .aslAbs w => [0x0E, loByte w, hiByte w]
  | .aslAbsx w => [0x1E, loByte w, hiByte w]
  | .lsrAcc => [0x4A]
  | .lsrZp b => [0x46, b]
  | .lsrZpx b => [0x56, b]
  | .lsrAbs w => [0x4E, loByte w, hiByte w]
  | .lsrAbsx w => [0x5E, loByte w, hiByte w]
  | .rolAcc => [0x2A]
  | .rolZp b => [0x26, b]
  | .rolZpx b => [0x36, b]
  | .rolAbs w => [0x2E, loByte w, hiByte w]
  | .rolAbsx w => [0x3E, loByte w, hiByte w]
  | .rorAcc => [0x6A]
  | .rorZp b => [0x66, b]
  | .rorZpx b => [0x76, b]
  | .rorAbs w => [0x6E, loByte w, hiByte w]
  | .rorAbsx w => [0x7E, loByte w, hiByte w]
  | .cmpImm b => [0xC9, b]
  | .cmpZp b => [0xC5, b]
  | .cmpZpx b => [0xD5, b]
  | .cmpAbs w => [0xCD, loByte w, hiByte w]
  | .cmpAbsx w => [0xDD, loByte w, hiByte w]
  | .cmpAbsy w => [0xD9, loByte w, hiByte w]
  | .cmpIndx b => [0xC1, b]
  | .cmpIndy b => [0xD1, b]
  | .cpxImm b => [0xE0, b]
  | .cpxZp b => [0xE4, b]
  | .cpxAbs w => [0xEC, loByte w, hiByte w]
  | .cpyImm b => [0xC0, b]
  | .cpyZp b => [0xC4, b]
  | .cpyAbs w => [0xCC, loByte w, hiByte w]
  | .bitZp b => [0x24, b]
  | .bitAbs w => [0x2C, loByte w, hiByte w]
  | .incZp b => [0xE6, b]
  | .incZpx b => [0xF6, b]
  | .incAbs w => [0xEE, loByte w, hiByte w]
  | .incAbsx w => [0xFE, loByte w, hiByte w]
  | .decZp b => [0xC6, b]
  | .decZpx b => [0xD6, b]
  | .decAbs w => [0xCE, loByte w, hiByte w]
  | .decAbsx w => [0xDE, loByte w, hiByte w]
  | .inx => [0xE8]
  | .iny => [0xC8]
  | .dex => [0xCA]
  | .dey => [0x88]
  | .ldaImm b => [0xA9, b]
  | .ldaZp b => [0xA5, b]
  | .ldaZpx b => [0xB5, b]
  | .ldaAbs w => [0xAD, loByte w, hiByte w]
  | .ldaAbsx w => [0xBD, loByte w, hiByte w]
  | .ldaAbsy w => [0xB9, loByte w, hiByte w]
  | .ldaIndx b => [0xA1, b]
  | .ldaIndy b => [0xB1, b]
  | .ldxImm b => [0xA2, b]
  | .ldxZp b => [0xA6, b]
  | .ldxZpy b => [0xB6, b]
  | .ldxAbs w => [0xAE, loByte w, hiByte w]
  | .ldxAbsy w => [0xBE, loByte w, hiByte w]
  | .ldyImm b => [0xA0, b]
  | .ldyZp b => [0xA4, b]
  | .ldyZpx b => [0xB4, b]
  | .ldyAbs w => [0xAC, loByte w, hiByte w]
  | .ldyAbsx w => [0xBC, loByte w, hiByte w]
  | .staZp b => [0x85, b]
  | .staZpx b => [0x95, b]
  | .staAbs w => [0x8D, loByte w, hiByte w]
  | .staAbsx w => [0x9D, loByte w, hiByte w]
  | .staAbsy w => [0x99, loByte w, hiByte w]
  | .staIndx b => [0x81, b]
  | .staIndy b => [0x91, b]
  | .stxZp b => [0x86, b]
  | .stxZpy b => [0x96, b]
  | .stxAbs w => [0x8E, loByte w, hiByte w]
  | .styZp b => [0x84, b]
  | .styZpx b => [0x94, b]
  | .styAbs w => [0x8C, loByte w, hiByte w]
  | .tax => [0xAA]
  | .txa => [0x8A]
  | .tay => [0xA8]
  | .tya => [0x98]
  | .tsx => [0xBA]
  | .txs => [0x9A]
  | .bcc d => [0x90, d]
  | .bcs d => [0xB0, d]
  | .bne d => [0xD0, d]
  | .beq d => [0xF0, d]
  | .bpl d => [0x10, d]
  | .bmi d => [0x30, d]
  | .bvc d => [0x50, d]
  | .bvs d => [0x70, d]
  | .jmpAbs w => [0x4C, loByte w, hiByte w]
  | .jmpInd w => [0x6C, loByte w, hiByte w]
  | .jsr w => [0x20, loByte w, hiByte w]
  | .rts => [0x60]
  | .brk => [0x00, pad]
  | .rti => [0x40]
  | .pha => [0x48]
  | .pla => [0x68]
  | .php => [0x08]
  | .plp => [0x28]
  | .clc => [0x18]
  | .sec => [0x38]
  | .cld => [0xD8]
  | .sed => [0xF8]
  | .cli => [0x58]
  | .sei => [0x78]
  | .clv => [0xB8]
  | .nop => [0xEA]

/-- The bytes of an instruction, the padding byte of `BRK` being 0x00 (DESIGN CHOICE, log 4). -/
def encode (i : Instr) : List Byte := encodeWith 0x00 i

/-- Byte `k` of an instruction whose bits are `w`, of which only the low `nbits` count. -/
def tableByte (nbits w k : Nat) : Byte := BitVec.ofNat 8 ((w % 2 ^ nbits) >>> (8 * k))

/-- The bytes of such an instruction, the first at the lowest address, up to the longest length, 3 (R69). -/
def tableBytes (nbits w : Nat) : List Byte := [tableByte nbits w 0, tableByte nbits w 1, tableByte nbits w 2]

/-- What the decoder reads from an instruction whose bits are numbered as spec/opcode_table.json numbers them. -/
def decodeTableWord (nbits w : Nat) : Option Instr :=
  match decode (tableBytes nbits w) with
  | .instr i _ => some i
  | _ => none

end Sys2Proof
end

