-- ==== Sys2Proof/Config.lean ====
section
/-! DEFINITION. The values `State.reset` takes for the two OPEN parameters of the spec, `ENTRY` and `MEM0` (R2, D20, D28). Nothing else
varies between instances of the hardware (R2), and the spec leaves no value free (93_implementation_defined.md, part 1). -/

namespace Sys2Proof

/-- `ENTRY` of `State.reset`. DESIGN CHOICE, unsafe: the spec gives any value 0..65535 to the caller (log 1). -/
def Config.entry : Word := 0x0200

/-- What a memory address that the list of cells does not hold reads as: `MEM0` of `State.reset` at every address. DESIGN CHOICE,
unsafe: the spec gives the image to the caller (log 2). -/
def Config.unlisted : Byte := 0x00

end Sys2Proof
end

