-- ==== Sys2Proof/Machine/State.lean ====
section
/-! DEFINITION. The state of the machine (R10, R33), the reasons a step can stop, and the state after reset. -/

namespace Sys2Proof.Machine

/-- The Memory Image (R42) as a list of (address, byte) cells. Canonical form (`Memory.wf`): addresses strictly rising and below 65536,
no byte equal to what an unlisted address reads as. -/
abbrev Memory := List Host.Cell

/-- The whole state: six registers and the memory (R10, R33). -/
structure State where
  /-- `A`, the accumulator (R11). -/
  a : Byte
  /-- `X`, index register (R12). -/
  x : Byte
  /-- `Y`, index register (R13). -/
  y : Byte
  /-- `S`, the stack pointer: the stack location is 0x0100 + S (R14). -/
  sp : Byte
  /-- `P`, the status register N V U B D I Z C, bits 7 to 0, all of them storage bits (R15, R29). -/
  p : Byte
  /-- `PC`, the program counter (R20). -/
  pc : Word
  /-- The Memory Image (R42). -/
  mem : Memory
deriving DecidableEq, Repr

/-- The reasons a step can end without `continue`. The machine has one (R81, R220, R221). -/
inductive Fault
  /-- `halt-unknown-opcode(op)`: raised by the opcode fetch of any step when the byte is unmapped (R220); `after` is the state the step
  leaves, `PC` one past the byte and nothing else changed. Safe: it is the outcome the spec gives (log 3). -/
  | unknownOpcode (op : Byte) (after : State)
deriving DecidableEq, Repr

/-- The reasons an instruction could have no meaning. -/
inductive Refusal
  /-- An instruction without a meaning yet, by its mnemonic: raised only by an arm of `exec`, and no arm raises it. Safe. -/
  | notModelled (mnemonic : String)
deriving DecidableEq, Repr

/-- The machine right after reset (R30, R31, R241): every register zero but `PC`, which is `ENTRY` (DESIGN CHOICE, log 1); nothing
listed in memory (`MEM0`: DESIGN CHOICE, log 2). `State.construct` is reset for every `ENTRY` and `MEM0`. -/
def State.reset : State :=
  { a := 0x00, x := 0x00, y := 0x00, sp := 0x00, p := 0x00, pc := Config.entry, mem := [] }

end Sys2Proof.Machine
end

