-- ==== Sys2Proof/Machine/Flags.lean ====
section
/-! DEFINITION. The eight flags as bits of a status byte, and every flag and result computation of the spec. -/

namespace Sys2Proof.Machine

/-- The flags, named high to low as in R15. -/
inductive Flag
  | n | v | u | b | d | i | z | c
deriving DecidableEq, Repr

/-- The bit of `P` that holds a flag (R15). -/
def Flag.bit : Flag → Nat
  | .n => 7
  | .v => 6
  | .u => 5
  | .b => 4
  | .d => 3
  | .i => 2
  | .z => 1
  | .c => 0

/-- The mask of a flag (R15). -/
def Flag.mask (f : Flag) : Byte := 1#8 <<< f.bit

/-- A flag of a status byte. -/
def getFlag (p : Byte) (f : Flag) : Bool := p.getLsbD f.bit

/-- A status byte with one flag given the value `v`, set or cleared, the others kept (R3, D8). -/
def putFlag (p : Byte) (f : Flag) (v : Bool) : Byte := if v then p ||| f.mask else p &&& ~~~f.mask

/-- `SetNZ(v)` on a status byte (R27). -/
def putNZ (p v : Byte) : Byte := putFlag (putFlag p .n (v.getLsbD 7)) .z (v == 0)

/-- The 9-bit sum of `ADC` as an integer (R100). -/
def adcSum (a m : Byte) (c : Bool) : Nat := a.toNat + m.toNat + c.toNat

/-- The result of `ADC`: the sum modulo 256 (R100). -/
def adcValue (a m : Byte) (c : Bool) : Byte := BitVec.ofNat 8 (adcSum a m c)

/-- The carry of `ADC` (R100). -/
def adcCarry (a m : Byte) (c : Bool) : Bool := decide (adcSum a m c > 255)

/-- The overflow of `ADC`: the operands' signs agree and the result's differs (R100). -/
def adcOverflow (a m r : Byte) : Bool := (a.getLsbD 7 == m.getLsbD 7) && (r.getLsbD 7 != a.getLsbD 7)

/-- The difference of `SBC` as a signed integer (R101). -/
def sbcDiff (a m : Byte) (c : Bool) : Int := (a.toNat : Int) - m.toNat - (1 - c.toNat)

/-- The result of `SBC`: the difference modulo 256, the non-negative residue (R101). -/
def sbcValue (a m : Byte) (c : Bool) : Byte := BitVec.ofInt 8 (sbcDiff a m c)

/-- The carry of `SBC`: 1 means no borrow (R101). -/
def sbcCarry (a m : Byte) (c : Bool) : Bool := decide (0 ≤ sbcDiff a m c)

/-- The overflow of `SBC`: the operands' signs differ and the result's differs from the minuend's (R101, C6). -/
def sbcOverflow (a m r : Byte) : Bool := (a.getLsbD 7 != m.getLsbD 7) && (r.getLsbD 7 != a.getLsbD 7)

/-- The carry of a compare: register >= operand, unsigned (R130 to R132). -/
def compareCarry (r m : Byte) : Bool := decide (m.toNat ≤ r.toNat)

/-- The value of `ASL` (R120). -/
def aslValue (v : Byte) : Byte := v <<< 1

/-- The value of `LSR` (R121). -/
def lsrValue (v : Byte) : Byte := v >>> 1

/-- The value of `ROL`: bit 0 is the old carry (R122). -/
def rolValue (v : Byte) (c : Bool) : Byte := (v <<< 1) ||| (if c then 0x01 else 0x00)

/-- The value of `ROR`: bit 7 is the old carry (R123). -/
def rorValue (v : Byte) (c : Bool) : Byte := (v >>> 1) ||| (if c then 0x80 else 0x00)

end Sys2Proof.Machine
end

