-- ==== Sys2Proof/Machine/Ops.lean ====
section
/-! DEFINITION. The named operations over memory and registers: memory access, the register writes, the stack, construction,
observation, the break trap and its return, and the one exception. -/

namespace Sys2Proof.Machine

/-- The canonical form of a memory: addresses strictly rising and below 65536 (R42), no byte equal to what an unlisted address
reads as. -/
def Memory.wf (m : Memory) : Bool :=
  decide (m.Pairwise fun c d => c.1 < d.1) && m.all fun c => decide (c.1 < 65536) && c.2 != Config.unlisted

/-- The byte at an address: total, an unlisted address reading as `Config.unlisted` (R40). -/
def Memory.read : Memory → Nat → Byte
  | [], _ => Config.unlisted
  | (k, v) :: m, a => if k = a then v else Memory.read m a

/-- The memory without the cells of an address. -/
def Memory.erase (m : Memory) (a : Nat) : Memory := m.filter fun c => c.1 != a

/-- The memory with a cell put before the first higher address. -/
def Memory.insert : Memory → Nat → Byte → Memory
  | [], a, v => [(a, v)]
  | (k, u) :: m, a, v => if a < k then (a, v) :: (k, u) :: m else (k, u) :: Memory.insert m a v

/-- Replace the byte at an address and no other (R41); writing what an unlisted address reads as removes the cell. -/
def Memory.write (m : Memory) (a : Nat) (v : Byte) : Memory :=
  if v = Config.unlisted then m.erase a else (m.erase a).insert a v

/-- The first `n` bytes of an image, each in its canonical place. -/
def Memory.imageBelow (n : Nat) (f : Word → Byte) : Memory :=
  ((List.range n).map fun k => (k, f (BitVec.ofNat 16 k))).filter fun c => c.2 != Config.unlisted

/-- A total image `MEM0` (R2, R31) as a memory. -/
@[irreducible] def Memory.ofFn (f : Word → Byte) : Memory := Memory.imageBelow 65536 f

/-- Construction, the machine's reset (R240, R241): registers zero, `PC` the caller's `entry`, memory the caller's `image`. -/
def State.construct (image : Word → Byte) (entry : Word) : State :=
  { a := 0x00, x := 0x00, y := 0x00, sp := 0x00, p := 0x00, pc := entry, mem := Memory.ofFn image }

/-- `A <- v` (R3). -/
def State.setA (s : State) (v : Byte) : State := { s with a := v }

/-- `X <- v` (R3). -/
def State.setX (s : State) (v : Byte) : State := { s with x := v }

/-- `Y <- v` (R3). -/
def State.setY (s : State) (v : Byte) : State := { s with y := v }

/-- `S <- v` (R3). -/
def State.setSp (s : State) (v : Byte) : State := { s with sp := v }

/-- `P <- v`, all eight bits (R3). -/
def State.setP (s : State) (v : Byte) : State := { s with p := v }

/-- `PC <- w` (R3). -/
def State.setPc (s : State) (w : Word) : State := { s with pc := w }

/-- A flag of `P` (R15). -/
def State.flag (s : State) (f : Flag) : Bool := getFlag s.p f

/-- `P.f <- v`, that bit only (R3). -/
def State.setFlag (s : State) (f : Flag) (v : Bool) : State := s.setP (putFlag s.p f v)

/-- `SetNZ(v)` (R27). -/
def State.setNZ (s : State) (v : Byte) : State := s.setP (putNZ s.p v)

/-- `A <- v; SetNZ(v)`. -/
def State.loadA (s : State) (v : Byte) : State := (s.setA v).setNZ v

/-- `X <- v; SetNZ(v)`. -/
def State.loadX (s : State) (v : Byte) : State := (s.setX v).setNZ v

/-- `Y <- v; SetNZ(v)`. -/
def State.loadY (s : State) (v : Byte) : State := (s.setY v).setNZ v

/-- `PCL` (R20). -/
def State.pcl (s : State) : Byte := loByte s.pc

/-- `PCH` (R20). -/
def State.pch (s : State) : Byte := hiByte s.pc

/-- `zext_16(b)` (R3). -/
def zext16 (b : Byte) : Word := b.setWidth 16

/-- `sext_16(b)` (R3). -/
def sext16 (b : Byte) : Word := b.signExtend 16

/-- `MemRead(addr, 1)` (R40). -/
def State.memRead (s : State) (addr : Word) : Byte := s.mem.read addr.toNat

/-- `MemWrite(addr, 1, v)` (R41). -/
def State.memWrite (s : State) (addr : Word) (v : Byte) : State := { s with mem := s.mem.write addr.toNat v }

/-- `MemRead16(addr)`: low byte first, the second address modulo 65536 (R44, R51). -/
def State.memRead16 (s : State) (addr : Word) : Word := mkWord (s.memRead addr) (s.memRead (addr + 1))

/-- A zero-page pointer: both bytes from the zero page, the second address modulo 256 (R50, D6). -/
def State.pointer (s : State) (z : Byte) : Word := mkWord (s.memRead (zext16 z)) (s.memRead (zext16 (z + 1)))

/-- The stack location of a stack pointer, `0x0100 + int(S)` (R14). -/
def stackAddr (sp : Byte) : Word := 0x0100 + zext16 sp

/-- `Push(v)` (R47). -/
def State.push (s : State) (v : Byte) : State := (s.memWrite (stackAddr s.sp) v).setSp (s.sp - 1)

/-- `Pull()`: the value and the state after it (R48). -/
def State.pull (s : State) : Byte × State := (s.memRead (stackAddr (s.sp + 1)), s.setSp (s.sp + 1))

/-- Push a 16-bit value, high byte first (R181, R190). -/
def State.pushWord (s : State) (w : Word) : State := (s.push (hiByte w)).push (loByte w)

/-- Pull a 16-bit value, low byte first (R182, R191, C4). -/
def State.pullWord (s : State) : Word × State :=
  let lo := s.pull
  let hi := lo.2.pull
  (mkWord lo.1 hi.1, hi.2)

/-- The break vector: low byte here, high byte at the next address (R49, R190, D4). -/
def breakVector : Word := 0xFFFA

/-- TAKING THE TRAP, the machine's only trap entry (R190, R223): skip the padding byte, push `PC` high byte first and `P | 0x10`, load
`PC` from the vector, set I. It starts with `PC` past the opcode. -/
def State.takeBreak (s : State) : State :=
  let s1 := s.setPc (s.pc + 1)
  let s2 := (s1.pushWord s1.pc).push (s1.p ||| 0x10)
  (s2.setPc (s2.memRead16 breakVector)).setFlag .i true

/-- RETURNING FROM THE TRAP (R191, R225): pull `P` with bits 5 and 4 cleared, then `PC` with no adjustment. -/
def State.returnFromBreak (s : State) : State :=
  let p := s.pull
  let r := (p.2.setP (p.1 &&& 0xCF)).pullWord
  r.2.setPc r.1

/-- What a meaning or a step answers. -/
abbrev Result := Host.Outcome State Fault Refusal

/-- RAISING THE EXCEPTION, the machine's only one (R220): the step ends with `halt-unknown-opcode(op)` and leaves the state `s`, in
which nothing but `PC` has changed. -/
def raiseUnknownOpcode (op : Byte) (s : State) : Result := .fault (.unknownOpcode op s)

/-- The state a fault leaves, from which a later step of the caller's would go on: there is no halted latch (R82, R248). -/
def Fault.after : Fault → State
  | .unknownOpcode _ s => s

/-- What the caller sees between steps, beside memory (R32, R245). -/
structure Observation where
  a : Byte
  x : Byte
  y : Byte
  s : Byte
  p : Byte
  pc : Word
  pcl : Byte
  pch : Byte
deriving DecidableEq, Repr

/-- The read-only observation of a state (R32). -/
def State.observe (s : State) : Observation :=
  { a := s.a, x := s.x, y := s.y, s := s.sp, p := s.p, pc := s.pc, pcl := s.pcl, pch := s.pch }

end Sys2Proof.Machine
end

