-- ==== Sys2Proof/Machine/Operands.lean ====
section
/-! DEFINITION. The operand forms: the memory modes with their effective addresses, the read-only operands, and the writable
locations (R83 to R98). The operand bytes are already fetched. -/

namespace Sys2Proof.Machine

/-- A mode that yields a memory location, with its operand byte or bytes (R83). -/
inductive MemOperand
  | zp (b : Byte)
  | zpx (b : Byte)
  | zpy (b : Byte)
  | abs (w : Word)
  | absx (w : Word)
  | absy (w : Word)
  | indx (b : Byte)
  | indy (b : Byte)
deriving DecidableEq, Repr

/-- The effective address of a memory mode: 8-bit arithmetic inside the zero page (R50), 16-bit elsewhere (R51). -/
def State.ea (s : State) : MemOperand → Word
  | .zp b => zext16 b                       -- R92
  | .zpx b => zext16 (b + s.x)              -- R96
  | .zpy b => zext16 (b + s.y)              -- R97
  | .abs w => w                             -- R89
  | .absx w => w + zext16 s.x               -- R90
  | .absy w => w + zext16 s.y               -- R91
  | .indx b => s.pointer (b + s.x)          -- R94
  | .indy b => s.pointer b + zext16 s.y     -- R95

/-- The operand of a read-only operation: an immediate value or a memory location (R83, R87). -/
inductive Source
  | imm (b : Byte)
  | mem (m : MemOperand)
deriving DecidableEq, Repr

/-- `OperandValue(operand)` (R98). -/
def State.operandValue (s : State) : Source → Byte
  | .imm b => b
  | .mem m => s.memRead (s.ea m)

/-- A writable location: the accumulator (R86) or a memory address (R83). -/
inductive Location
  | acc
  | mem (addr : Word)
deriving DecidableEq, Repr

/-- The location a memory mode yields, resolved before the operation starts (R58, R83). -/
def State.location (s : State) (m : MemOperand) : Location := .mem (s.ea m)

/-- `LocationRead(loc)` (R98). -/
def State.locationRead (s : State) : Location → Byte
  | .acc => s.a
  | .mem addr => s.memRead addr

/-- `LocationWrite(loc, v)` (R98). -/
def State.locationWrite (s : State) (loc : Location) (v : Byte) : State :=
  match loc with
  | .acc => s.setA v
  | .mem addr => s.memWrite addr v

end Sys2Proof.Machine
end

