-- ==== Sys2Proof/Machine/Arithmetic.lean ====
section
/-! DEFINITION. The meanings of ADC and SBC (spec/41_arithmetic.md). Each is the operation part of a step: `PC` is already past the
fetched bytes (R22, log 5). -/

namespace Sys2Proof.Machine

/-- The operation of `ADC` on the operand value `m` (R100): binary whatever D holds (R102). -/
def State.adc (s : State) (m : Byte) : State :=
  let r := adcValue s.a m (s.flag .c)
  let s1 := s.setFlag .c (adcCarry s.a m (s.flag .c))
  let s2 := s1.setFlag .v (adcOverflow s.a m r)
  (s2.setA r).setNZ r

/-- The operation of `SBC` on the operand value `m` (R101): binary whatever D holds (R102). -/
def State.sbc (s : State) (m : Byte) : State :=
  let r := sbcValue s.a m (s.flag .c)
  let s1 := s.setFlag .c (sbcCarry s.a m (s.flag .c))
  let s2 := s1.setFlag .v (sbcOverflow s.a m r)
  (s2.setA r).setNZ r

/-- `ADC #$nn`, opcode 69 (R100, mode R87). -/
def execAdcImm (b : Byte) (s : State) : Result :=
  .next (s.adc (s.operandValue (.imm b)))

/-- `ADC $nn`, opcode 65 (R100, mode R92). -/
def execAdcZp (b : Byte) (s : State) : Result :=
  .next (s.adc (s.operandValue (.mem (.zp b))))

/-- `ADC $nn,X`, opcode 75 (R100, mode R96). -/
def execAdcZpx (b : Byte) (s : State) : Result :=
  .next (s.adc (s.operandValue (.mem (.zpx b))))

/-- `ADC $nnnn`, opcode 6D (R100, mode R89). -/
def execAdcAbs (w : Word) (s : State) : Result :=
  .next (s.adc (s.operandValue (.mem (.abs w))))

/-- `ADC $nnnn,X`, opcode 7D (R100, mode R90). -/
def execAdcAbsx (w : Word) (s : State) : Result :=
  .next (s.adc (s.operandValue (.mem (.absx w))))

/-- `ADC $nnnn,Y`, opcode 79 (R100, mode R91). -/
def execAdcAbsy (w : Word) (s : State) : Result :=
  .next (s.adc (s.operandValue (.mem (.absy w))))

/-- `ADC ($nn,X)`, opcode 61 (R100, mode R94). -/
def execAdcIndx (b : Byte) (s : State) : Result :=
  .next (s.adc (s.operandValue (.mem (.indx b))))

/-- `ADC ($nn),Y`, opcode 71 (R100, mode R95). -/
def execAdcIndy (b : Byte) (s : State) : Result :=
  .next (s.adc (s.operandValue (.mem (.indy b))))

/-- `SBC #$nn`, opcode E9 (R101, mode R87). -/
def execSbcImm (b : Byte) (s : State) : Result :=
  .next (s.sbc (s.operandValue (.imm b)))

/-- `SBC $nn`, opcode E5 (R101, mode R92). -/
def execSbcZp (b : Byte) (s : State) : Result :=
  .next (s.sbc (s.operandValue (.mem (.zp b))))

/-- `SBC $nn,X`, opcode F5 (R101, mode R96). -/
def execSbcZpx (b : Byte) (s : State) : Result :=
  .next (s.sbc (s.operandValue (.mem (.zpx b))))

/-- `SBC $nnnn`, opcode ED (R101, mode R89). -/
def execSbcAbs (w : Word) (s : State) : Result :=
  .next (s.sbc (s.operandValue (.mem (.abs w))))

/-- `SBC $nnnn,X`, opcode FD (R101, mode R90). -/
def execSbcAbsx (w : Word) (s : State) : Result :=
  .next (s.sbc (s.operandValue (.mem (.absx w))))

/-- `SBC $nnnn,Y`, opcode F9 (R101, mode R91). -/
def execSbcAbsy (w : Word) (s : State) : Result :=
  .next (s.sbc (s.operandValue (.mem (.absy w))))

/-- `SBC ($nn,X)`, opcode E1 (R101, mode R94). -/
def execSbcIndx (b : Byte) (s : State) : Result :=
  .next (s.sbc (s.operandValue (.mem (.indx b))))

/-- `SBC ($nn),Y`, opcode F1 (R101, mode R95). -/
def execSbcIndy (b : Byte) (s : State) : Result :=
  .next (s.sbc (s.operandValue (.mem (.indy b))))

end Sys2Proof.Machine
end

