-- ==== Sys2Proof/Machine/Compare.lean ====
section
/-! DEFINITION. The meanings of CMP, CPX, CPY and BIT (spec/44_compare_bit.md). Each is the operation part of a step: `PC` is already past the
fetched bytes (R22, log 5). -/

namespace Sys2Proof.Machine

/-- What the three compares share (R130 to R132): C is the unsigned comparison, N and Z are those of the wrapped difference. -/
def State.compare (s : State) (r m : Byte) : State := (s.setFlag .c (compareCarry r m)).setNZ (r - m)

/-- The operation of `CMP` (R130). -/
def State.cmpA (s : State) (m : Byte) : State := s.compare s.a m

/-- The operation of `CPX` (R131). -/
def State.cmpX (s : State) (m : Byte) : State := s.compare s.x m

/-- The operation of `CPY` (R132). -/
def State.cmpY (s : State) (m : Byte) : State := s.compare s.y m

/-- The operation of `BIT` (R133): N and V from the operand alone, Z from `A & m`. -/
def State.bitTest (s : State) (m : Byte) : State :=
  ((s.setFlag .n (m.getLsbD 7)).setFlag .v (m.getLsbD 6)).setFlag .z (s.a &&& m == 0)

/-- `CMP #$nn`, opcode C9 (R130, mode R87). -/
def execCmpImm (b : Byte) (s : State) : Result :=
  .next (s.cmpA (s.operandValue (.imm b)))

/-- `CMP $nn`, opcode C5 (R130, mode R92). -/
def execCmpZp (b : Byte) (s : State) : Result :=
  .next (s.cmpA (s.operandValue (.mem (.zp b))))

/-- `CMP $nn,X`, opcode D5 (R130, mode R96). -/
def execCmpZpx (b : Byte) (s : State) : Result :=
  .next (s.cmpA (s.operandValue (.mem (.zpx b))))

/-- `CMP $nnnn`, opcode CD (R130, mode R89). -/
def execCmpAbs (w : Word) (s : State) : Result :=
  .next (s.cmpA (s.operandValue (.mem (.abs w))))

/-- `CMP $nnnn,X`, opcode DD (R130, mode R90). -/
def execCmpAbsx (w : Word) (s : State) : Result :=
  .next (s.cmpA (s.operandValue (.mem (.absx w))))

/-- `CMP $nnnn,Y`, opcode D9 (R130, mode R91). -/
def execCmpAbsy (w : Word) (s : State) : Result :=
  .next (s.cmpA (s.operandValue (.mem (.absy w))))

/-- `CMP ($nn,X)`, opcode C1 (R130, mode R94). -/
def execCmpIndx (b : Byte) (s : State) : Result :=
  .next (s.cmpA (s.operandValue (.mem (.indx b))))

/-- `CMP ($nn),Y`, opcode D1 (R130, mode R95). -/
def execCmpIndy (b : Byte) (s : State) : Result :=
  .next (s.cmpA (s.operandValue (.mem (.indy b))))

/-- `CPX #$nn`, opcode E0 (R131, mode R87). -/
def execCpxImm (b : Byte) (s : State) : Result :=
  .next (s.cmpX (s.operandValue (.imm b)))

/-- `CPX $nn`, opcode E4 (R131, mode R92). -/
def execCpxZp (b : Byte) (s : State) : Result :=
  .next (s.cmpX (s.operandValue (.mem (.zp b))))

/-- `CPX $nnnn`, opcode EC (R131, mode R89). -/
def execCpxAbs (w : Word) (s : State) : Result :=
  .next (s.cmpX (s.operandValue (.mem (.abs w))))

/-- `CPY #$nn`, opcode C0 (R132, mode R87). -/
def execCpyImm (b : Byte) (s : State) : Result :=
  .next (s.cmpY (s.operandValue (.imm b)))

/-- `CPY $nn`, opcode C4 (R132, mode R92). -/
def execCpyZp (b : Byte) (s : State) : Result :=
  .next (s.cmpY (s.operandValue (.mem (.zp b))))

/-- `CPY $nnnn`, opcode CC (R132, mode R89). -/
def execCpyAbs (w : Word) (s : State) : Result :=
  .next (s.cmpY (s.operandValue (.mem (.abs w))))

/-- `BIT $nn`, opcode 24 (R133, mode R92). -/
def execBitZp (b : Byte) (s : State) : Result :=
  .next (s.bitTest (s.operandValue (.mem (.zp b))))

/-- `BIT $nnnn`, opcode 2C (R133, mode R89). -/
def execBitAbs (w : Word) (s : State) : Result :=
  .next (s.bitTest (s.operandValue (.mem (.abs w))))

end Sys2Proof.Machine
end

