-- ==== Sys2Proof/Machine/Control.lean ====
section
/-! DEFINITION. The meanings of branches, JMP, JSR and RTS (spec/47_branch_jump.md). Each is the operation part of a step: `PC` is already past the
fetched bytes (R22, log 5). -/

namespace Sys2Proof.Machine

/-- What the eight branches share (R178): the displacement is added, sign-extended, to `PC`, which is past the branch. -/
def State.branch (s : State) (taken : Bool) (d : Byte) : State := if taken then s.setPc (s.pc + sext16 d) else s

/-- The operation of `JSR` (R181): push `PC - 1`, the address of the call's last byte, high byte first, then jump. -/
def State.call (s : State) (t : Word) : State := (s.pushWord (s.pc - 1)).setPc t

/-- The operation of `RTS` (R182): pull the address, low byte first, and add one. -/
def State.returnFromCall (s : State) : State := s.pullWord.2.setPc (s.pullWord.1 + 1)

/-- `BCC label`, opcode 90 (R170, mode R87). -/
def execBcc (d : Byte) (s : State) : Result :=
  .next (s.branch (!s.flag .c) d)

/-- `BCS label`, opcode B0 (R171, mode R87). -/
def execBcs (d : Byte) (s : State) : Result :=
  .next (s.branch (s.flag .c) d)

/-- `BNE label`, opcode D0 (R172, mode R87). -/
def execBne (d : Byte) (s : State) : Result :=
  .next (s.branch (!s.flag .z) d)

/-- `BEQ label`, opcode F0 (R173, mode R87). -/
def execBeq (d : Byte) (s : State) : Result :=
  .next (s.branch (s.flag .z) d)

/-- `BPL label`, opcode 10 (R174, mode R87). -/
def execBpl (d : Byte) (s : State) : Result :=
  .next (s.branch (!s.flag .n) d)

/-- `BMI label`, opcode 30 (R175, mode R87). -/
def execBmi (d : Byte) (s : State) : Result :=
  .next (s.branch (s.flag .n) d)

/-- `BVC label`, opcode 50 (R176, mode R87). -/
def execBvc (d : Byte) (s : State) : Result :=
  .next (s.branch (!s.flag .v) d)

/-- `BVS label`, opcode 70 (R177, mode R87). -/
def execBvs (d : Byte) (s : State) : Result :=
  .next (s.branch (s.flag .v) d)

/-- `JMP $nnnn`, opcode 4C (R180, mode R88). -/
def execJmpAbs (w : Word) (s : State) : Result :=
  .next (s.setPc w)

/-- `JMP ($nnnn)`, opcode 6C (R180, mode R93). -/
def execJmpInd (w : Word) (s : State) : Result :=
  .next (s.setPc (s.memRead16 w))

/-- `JSR $nnnn`, opcode 20 (R181, mode R88). -/
def execJsr (w : Word) (s : State) : Result :=
  .next (s.call w)

/-- `RTS`, opcode 60 (R182, mode R85). -/
def execRts (s : State) : Result :=
  .next (s.returnFromCall)

end Sys2Proof.Machine
end

