-- ==== Sys2Proof/Machine/IncDec.lean ====
section
/-! DEFINITION. The meanings of INC, DEC, INX, INY, DEX and DEY (spec/45_incdec.md). Each is the operation part of a step: `PC` is already past the
fetched bytes (R22, log 5). -/

namespace Sys2Proof.Machine

/-- The operation of `INC` (R140). -/
def State.inc (s : State) (loc : Location) : State :=
  let r := s.locationRead loc + 1
  (s.locationWrite loc r).setNZ r

/-- The operation of `DEC` (R141). -/
def State.dec (s : State) (loc : Location) : State :=
  let r := s.locationRead loc - 1
  (s.locationWrite loc r).setNZ r

/-- `INC $nn`, opcode E6 (R140, mode R92). -/
def execIncZp (b : Byte) (s : State) : Result :=
  .next (s.inc (s.location (.zp b)))

/-- `INC $nn,X`, opcode F6 (R140, mode R96). -/
def execIncZpx (b : Byte) (s : State) : Result :=
  .next (s.inc (s.location (.zpx b)))

/-- `INC $nnnn`, opcode EE (R140, mode R89). -/
def execIncAbs (w : Word) (s : State) : Result :=
  .next (s.inc (s.location (.abs w)))

/-- `INC $nnnn,X`, opcode FE (R140, mode R90). -/
def execIncAbsx (w : Word) (s : State) : Result :=
  .next (s.inc (s.location (.absx w)))

/-- `DEC $nn`, opcode C6 (R141, mode R92). -/
def execDecZp (b : Byte) (s : State) : Result :=
  .next (s.dec (s.location (.zp b)))

/-- `DEC $nn,X`, opcode D6 (R141, mode R96). -/
def execDecZpx (b : Byte) (s : State) : Result :=
  .next (s.dec (s.location (.zpx b)))

/-- `DEC $nnnn`, opcode CE (R141, mode R89). -/
def execDecAbs (w : Word) (s : State) : Result :=
  .next (s.dec (s.location (.abs w)))

/-- `DEC $nnnn,X`, opcode DE (R141, mode R90). -/
def execDecAbsx (w : Word) (s : State) : Result :=
  .next (s.dec (s.location (.absx w)))

/-- `INX`, opcode E8 (R142, mode R85). -/
def execInx (s : State) : Result :=
  .next (s.loadX (s.x + 1))

/-- `INY`, opcode C8 (R143, mode R85). -/
def execIny (s : State) : Result :=
  .next (s.loadY (s.y + 1))

/-- `DEX`, opcode CA (R144, mode R85). -/
def execDex (s : State) : Result :=
  .next (s.loadX (s.x - 1))

/-- `DEY`, opcode 88 (R145, mode R85). -/
def execDey (s : State) : Result :=
  .next (s.loadY (s.y - 1))

end Sys2Proof.Machine
end

