-- ==== Sys2Proof/Machine/LoadStore.lean ====
section
/-! DEFINITION. The meanings of loads, stores and transfers (spec/46_load_store_transfer.md). Each is the operation part of a step: `PC` is already past the
fetched bytes (R22, log 5). -/

namespace Sys2Proof.Machine

/-- `LDA #$nn`, opcode A9 (R150, mode R87). -/
def execLdaImm (b : Byte) (s : State) : Result :=
  .next (s.loadA (s.operandValue (.imm b)))

/-- `LDA $nn`, opcode A5 (R150, mode R92). -/
def execLdaZp (b : Byte) (s : State) : Result :=
  .next (s.loadA (s.operandValue (.mem (.zp b))))

/-- `LDA $nn,X`, opcode B5 (R150, mode R96). -/
def execLdaZpx (b : Byte) (s : State) : Result :=
  .next (s.loadA (s.operandValue (.mem (.zpx b))))

/-- `LDA $nnnn`, opcode AD (R150, mode R89). -/
def execLdaAbs (w : Word) (s : State) : Result :=
  .next (s.loadA (s.operandValue (.mem (.abs w))))

/-- `LDA $nnnn,X`, opcode BD (R150, mode R90). -/
def execLdaAbsx (w : Word) (s : State) : Result :=
  .next (s.loadA (s.operandValue (.mem (.absx w))))

/-- `LDA $nnnn,Y`, opcode B9 (R150, mode R91). -/
def execLdaAbsy (w : Word) (s : State) : Result :=
  .next (s.loadA (s.operandValue (.mem (.absy w))))

/-- `LDA ($nn,X)`, opcode A1 (R150, mode R94). -/
def execLdaIndx (b : Byte) (s : State) : Result :=
  .next (s.loadA (s.operandValue (.mem (.indx b))))

/-- `LDA ($nn),Y`, opcode B1 (R150, mode R95). -/
def execLdaIndy (b : Byte) (s : State) : Result :=
  .next (s.loadA (s.operandValue (.mem (.indy b))))

/-- `LDX #$nn`, opcode A2 (R151, mode R87). -/
def execLdxImm (b : Byte) (s : State) : Result :=
  .next (s.loadX (s.operandValue (.imm b)))

/-- `LDX $nn`, opcode A6 (R151, mode R92). -/
def execLdxZp (b : Byte) (s : State) : Result :=
  .next (s.loadX (s.operandValue (.mem (.zp b))))

/-- `LDX $nn,Y`, opcode B6 (R151, mode R97). -/
def execLdxZpy (b : Byte) (s : State) : Result :=
  .next (s.loadX (s.operandValue (.mem (.zpy b))))

/-- `LDX $nnnn`, opcode AE (R151, mode R89). -/
def execLdxAbs (w : Word) (s : State) : Result :=
  .next (s.loadX (s.operandValue (.mem (.abs w))))

/-- `LDX $nnnn,Y`, opcode BE (R151, mode R91). -/
def execLdxAbsy (w : Word) (s : State) : Result :=
  .next (s.loadX (s.operandValue (.mem (.absy w))))

/-- `LDY #$nn`, opcode A0 (R152, mode R87). -/
def execLdyImm (b : Byte) (s : State) : Result :=
  .next (s.loadY (s.operandValue (.imm b)))

/-- `LDY $nn`, opcode A4 (R152, mode R92). -/
def execLdyZp (b : Byte) (s : State) : Result :=
  .next (s.loadY (s.operandValue (.mem (.zp b))))

/-- `LDY $nn,X`, opcode B4 (R152, mode R96). -/
def execLdyZpx (b : Byte) (s : State) : Result :=
  .next (s.loadY (s.operandValue (.mem (.zpx b))))

/-- `LDY $nnnn`, opcode AC (R152, mode R89). -/
def execLdyAbs (w : Word) (s : State) : Result :=
  .next (s.loadY (s.operandValue (.mem (.abs w))))

/-- `LDY $nnnn,X`, opcode BC (R152, mode R90). -/
def execLdyAbsx (w : Word) (s : State) : Result :=
  .next (s.loadY (s.operandValue (.mem (.absx w))))

/-- `STA $nn`, opcode 85 (R153, mode R92). -/
def execStaZp (b : Byte) (s : State) : Result :=
  .next (s.locationWrite (s.location (.zp b)) s.a)

/-- `STA $nn,X`, opcode 95 (R153, mode R96). -/
def execStaZpx (b : Byte) (s : State) : Result :=
  .next (s.locationWrite (s.location (.zpx b)) s.a)

/-- `STA $nnnn`, opcode 8D (R153, mode R89). -/
def execStaAbs (w : Word) (s : State) : Result :=
  .next (s.locationWrite (s.location (.abs w)) s.a)

/-- `STA $nnnn,X`, opcode 9D (R153, mode R90). -/
def execStaAbsx (w : Word) (s : State) : Result :=
  .next (s.locationWrite (s.location (.absx w)) s.a)

/-- `STA $nnnn,Y`, opcode 99 (R153, mode R91). -/
def execStaAbsy (w : Word) (s : State) : Result :=
  .next (s.locationWrite (s.location (.absy w)) s.a)

/-- `STA ($nn,X)`, opcode 81 (R153, mode R94). -/
def execStaIndx (b : Byte) (s : State) : Result :=
  .next (s.locationWrite (s.location (.indx b)) s.a)

/-- `STA ($nn),Y`, opcode 91 (R153, mode R95). -/
def execStaIndy (b : Byte) (s : State) : Result :=
  .next (s.locationWrite (s.location (.indy b)) s.a)

/-- `STX $nn`, opcode 86 (R154, mode R92). -/
def execStxZp (b : Byte) (s : State) : Result :=
  .next (s.locationWrite (s.location (.zp b)) s.x)

/-- `STX $nn,Y`, opcode 96 (R154, mode R97). -/
def execStxZpy (b : Byte) (s : State) : Result :=
  .next (s.locationWrite (s.location (.zpy b)) s.x)

/-- `STX $nnnn`, opcode 8E (R154, mode R89). -/
def execStxAbs (w : Word) (s : State) : Result :=
  .next (s.locationWrite (s.location (.abs w)) s.x)

/-- `STY $nn`, opcode 84 (R155, mode R92). -/
def execStyZp (b : Byte) (s : State) : Result :=
  .next (s.locationWrite (s.location (.zp b)) s.y)

/-- `STY $nn,X`, opcode 94 (R155, mode R96). -/
def execStyZpx (b : Byte) (s : State) : Result :=
  .next (s.locationWrite (s.location (.zpx b)) s.y)

/-- `STY $nnnn`, opcode 8C (R155, mode R89). -/
def execStyAbs (w : Word) (s : State) : Result :=
  .next (s.locationWrite (s.location (.abs w)) s.y)

/-- `TAX`, opcode AA (R156, mode R85). -/
def execTax (s : State) : Result :=
  .next (s.loadX s.a)

/-- `TXA`, opcode 8A (R157, mode R85). -/
def execTxa (s : State) : Result :=
  .next (s.loadA s.x)

/-- `TAY`, opcode A8 (R158, mode R85). -/
def execTay (s : State) : Result :=
  .next (s.loadY s.a)

/-- `TYA`, opcode 98 (R159, mode R85). -/
def execTya (s : State) : Result :=
  .next (s.loadA s.y)

/-- `TSX`, opcode BA (R160, mode R85). -/
def execTsx (s : State) : Result :=
  .next (s.loadX s.sp)

/-- `TXS`, opcode 9A (R161, mode R85). -/
def execTxs (s : State) : Result :=
  .next (s.setSp s.x)

end Sys2Proof.Machine
end

