-- ==== Sys2Proof/Machine/Logic.lean ====
section
/-! DEFINITION. The meanings of AND, ORA and EOR (spec/42_logic.md). Each is the operation part of a step: `PC` is already past the
fetched bytes (R22, log 5). -/

namespace Sys2Proof.Machine

/-- The operation of `AND` (R110). -/
def State.andA (s : State) (m : Byte) : State := s.loadA (s.a &&& m)

/-- The operation of `ORA` (R111). -/
def State.oraA (s : State) (m : Byte) : State := s.loadA (s.a ||| m)

/-- The operation of `EOR` (R112). -/
def State.eorA (s : State) (m : Byte) : State := s.loadA (s.a ^^^ m)

/-- `AND #$nn`, opcode 29 (R110, mode R87). -/
def execAndImm (b : Byte) (s : State) : Result :=
  .next (s.andA (s.operandValue (.imm b)))

/-- `AND $nn`, opcode 25 (R110, mode R92). -/
def execAndZp (b : Byte) (s : State) : Result :=
  .next (s.andA (s.operandValue (.mem (.zp b))))

/-- `AND $nn,X`, opcode 35 (R110, mode R96). -/
def execAndZpx (b : Byte) (s : State) : Result :=
  .next (s.andA (s.operandValue (.mem (.zpx b))))

/-- `AND $nnnn`, opcode 2D (R110, mode R89). -/
def execAndAbs (w : Word) (s : State) : Result :=
  .next (s.andA (s.operandValue (.mem (.abs w))))

/-- `AND $nnnn,X`, opcode 3D (R110, mode R90). -/
def execAndAbsx (w : Word) (s : State) : Result :=
  .next (s.andA (s.operandValue (.mem (.absx w))))

/-- `AND $nnnn,Y`, opcode 39 (R110, mode R91). -/
def execAndAbsy (w : Word) (s : State) : Result :=
  .next (s.andA (s.operandValue (.mem (.absy w))))

/-- `AND ($nn,X)`, opcode 21 (R110, mode R94). -/
def execAndIndx (b : Byte) (s : State) : Result :=
  .next (s.andA (s.operandValue (.mem (.indx b))))

/-- `AND ($nn),Y`, opcode 31 (R110, mode R95). -/
def execAndIndy (b : Byte) (s : State) : Result :=
  .next (s.andA (s.operandValue (.mem (.indy b))))

/-- `ORA #$nn`, opcode 09 (R111, mode R87). -/
def execOraImm (b : Byte) (s : State) : Result :=
  .next (s.oraA (s.operandValue (.imm b)))

/-- `ORA $nn`, opcode 05 (R111, mode R92). -/
def execOraZp (b : Byte) (s : State) : Result :=
  .next (s.oraA (s.operandValue (.mem (.zp b))))

/-- `ORA $nn,X`, opcode 15 (R111, mode R96). -/
def execOraZpx (b : Byte) (s : State) : Result :=
  .next (s.oraA (s.operandValue (.mem (.zpx b))))

/-- `ORA $nnnn`, opcode 0D (R111, mode R89). -/
def execOraAbs (w : Word) (s : State) : Result :=
  .next (s.oraA (s.operandValue (.mem (.abs w))))

/-- `ORA $nnnn,X`, opcode 1D (R111, mode R90). -/
def execOraAbsx (w : Word) (s : State) : Result :=
  .next (s.oraA (s.operandValue (.mem (.absx w))))

/-- `ORA $nnnn,Y`, opcode 19 (R111, mode R91). -/
def execOraAbsy (w : Word) (s : State) : Result :=
  .next (s.oraA (s.operandValue (.mem (.absy w))))

/-- `ORA ($nn,X)`, opcode 01 (R111, mode R94). -/
def execOraIndx (b : Byte) (s : State) : Result :=
  .next (s.oraA (s.operandValue (.mem (.indx b))))

/-- `ORA ($nn),Y`, opcode 11 (R111, mode R95). -/
def execOraIndy (b : Byte) (s : State) : Result :=
  .next (s.oraA (s.operandValue (.mem (.indy b))))

/-- `EOR #$nn`, opcode 49 (R112, mode R87). -/
def execEorImm (b : Byte) (s : State) : Result :=
  .next (s.eorA (s.operandValue (.imm b)))

/-- `EOR $nn`, opcode 45 (R112, mode R92). -/
def execEorZp (b : Byte) (s : State) : Result :=
  .next (s.eorA (s.operandValue (.mem (.zp b))))

/-- `EOR $nn,X`, opcode 55 (R112, mode R96). -/
def execEorZpx (b : Byte) (s : State) : Result :=
  .next (s.eorA (s.operandValue (.mem (.zpx b))))

/-- `EOR $nnnn`, opcode 4D (R112, mode R89). -/
def execEorAbs (w : Word) (s : State) : Result :=
  .next (s.eorA (s.operandValue (.mem (.abs w))))

/-- `EOR $nnnn,X`, opcode 5D (R112, mode R90). -/
def execEorAbsx (w : Word) (s : State) : Result :=
  .next (s.eorA (s.operandValue (.mem (.absx w))))

/-- `EOR $nnnn,Y`, opcode 59 (R112, mode R91). -/
def execEorAbsy (w : Word) (s : State) : Result :=
  .next (s.eorA (s.operandValue (.mem (.absy w))))

/-- `EOR ($nn,X)`, opcode 41 (R112, mode R94). -/
def execEorIndx (b : Byte) (s : State) : Result :=
  .next (s.eorA (s.operandValue (.mem (.indx b))))

/-- `EOR ($nn),Y`, opcode 51 (R112, mode R95). -/
def execEorIndy (b : Byte) (s : State) : Result :=
  .next (s.eorA (s.operandValue (.mem (.indy b))))

end Sys2Proof.Machine
end

