-- ==== Sys2Proof/Machine/Shift.lean ====
section
/-! DEFINITION. The meanings of ASL, LSR, ROL and ROR (spec/43_shift_rotate.md). Each is the operation part of a step: `PC` is already past the
fetched bytes (R22, log 5). -/

namespace Sys2Proof.Machine

/-- What the four share: the carry is the bit shifted out, the location receives the shifted value, N and Z follow it (R120 to R123).
`carry` and `r` are computed by the caller from the value read and the old carry, before anything is written. -/
def State.shiftTo (s : State) (loc : Location) (carry : Bool) (r : Byte) : State :=
  ((s.setFlag .c carry).locationWrite loc r).setNZ r

/-- `ASL` (R120). -/
def State.asl (s : State) (loc : Location) : State :=
  let v := s.locationRead loc
  s.shiftTo loc (v.getLsbD 7) (aslValue v)

/-- `LSR` (R121). -/
def State.lsr (s : State) (loc : Location) : State :=
  let v := s.locationRead loc
  s.shiftTo loc (v.getLsbD 0) (lsrValue v)

/-- `ROL` (R122): the old carry enters bit 0. -/
def State.rol (s : State) (loc : Location) : State :=
  let v := s.locationRead loc
  s.shiftTo loc (v.getLsbD 7) (rolValue v (s.flag .c))

/-- `ROR` (R123): the old carry enters bit 7. -/
def State.ror (s : State) (loc : Location) : State :=
  let v := s.locationRead loc
  s.shiftTo loc (v.getLsbD 0) (rorValue v (s.flag .c))

/-- `ASL A`, opcode 0A (R120, mode R86). -/
def execAslAcc (s : State) : Result :=
  .next (s.asl .acc)

/-- `ASL $nn`, opcode 06 (R120, mode R92). -/
def execAslZp (b : Byte) (s : State) : Result :=
  .next (s.asl (s.location (.zp b)))

/-- `ASL $nn,X`, opcode 16 (R120, mode R96). -/
def execAslZpx (b : Byte) (s : State) : Result :=
  .next (s.asl (s.location (.zpx b)))

/-- `ASL $nnnn`, opcode 0E (R120, mode R89). -/
def execAslAbs (w : Word) (s : State) : Result :=
  .next (s.asl (s.location (.abs w)))

/-- `ASL $nnnn,X`, opcode 1E (R120, mode R90). -/
def execAslAbsx (w : Word) (s : State) : Result :=
  .next (s.asl (s.location (.absx w)))

/-- `LSR A`, opcode 4A (R121, mode R86). -/
def execLsrAcc (s : State) : Result :=
  .next (s.lsr .acc)

/-- `LSR $nn`, opcode 46 (R121, mode R92). -/
def execLsrZp (b : Byte) (s : State) : Result :=
  .next (s.lsr (s.location (.zp b)))

/-- `LSR $nn,X`, opcode 56 (R121, mode R96). -/
def execLsrZpx (b : Byte) (s : State) : Result :=
  .next (s.lsr (s.location (.zpx b)))

/-- `LSR $nnnn`, opcode 4E (R121, mode R89). -/
def execLsrAbs (w : Word) (s : State) : Result :=
  .next (s.lsr (s.location (.abs w)))

/-- `LSR $nnnn,X`, opcode 5E (R121, mode R90). -/
def execLsrAbsx (w : Word) (s : State) : Result :=
  .next (s.lsr (s.location (.absx w)))

/-- `ROL A`, opcode 2A (R122, mode R86). -/
def execRolAcc (s : State) : Result :=
  .next (s.rol .acc)

/-- `ROL $nn`, opcode 26 (R122, mode R92). -/
def execRolZp (b : Byte) (s : State) : Result :=
  .next (s.rol (s.location (.zp b)))

/-- `ROL $nn,X`, opcode 36 (R122, mode R96). -/
def execRolZpx (b : Byte) (s : State) : Result :=
  .next (s.rol (s.location (.zpx b)))

/-- `ROL $nnnn`, opcode 2E (R122, mode R89). -/
def execRolAbs (w : Word) (s : State) : Result :=
  .next (s.rol (s.location (.abs w)))

/-- `ROL $nnnn,X`, opcode 3E (R122, mode R90). -/
def execRolAbsx (w : Word) (s : State) : Result :=
  .next (s.rol (s.location (.absx w)))

/-- `ROR A`, opcode 6A (R123, mode R86). -/
def execRorAcc (s : State) : Result :=
  .next (s.ror .acc)

/-- `ROR $nn`, opcode 66 (R123, mode R92). -/
def execRorZp (b : Byte) (s : State) : Result :=
  .next (s.ror (s.location (.zp b)))

/-- `ROR $nn,X`, opcode 76 (R123, mode R96). -/
def execRorZpx (b : Byte) (s : State) : Result :=
  .next (s.ror (s.location (.zpx b)))

/-- `ROR $nnnn`, opcode 6E (R123, mode R89). -/
def execRorAbs (w : Word) (s : State) : Result :=
  .next (s.ror (s.location (.abs w)))

/-- `ROR $nnnn,X`, opcode 7E (R123, mode R90). -/
def execRorAbsx (w : Word) (s : State) : Result :=
  .next (s.ror (s.location (.absx w)))

end Sys2Proof.Machine
end

