-- ==== Sys2Proof/Machine/System.lean ====
section
/-! DEFINITION. The meanings of BRK, RTI, the stack, the flags and NOP (spec/48_stack_flags_system.md). Each is the operation part of a step: `PC` is already past the
fetched bytes (R22, log 5). -/

namespace Sys2Proof.Machine

/-- `BRK`, opcode 00 (R190). -/
def execBrk (s : State) : Result :=
  .next (s.takeBreak)

/-- `RTI`, opcode 40 (R191, mode R85). -/
def execRti (s : State) : Result :=
  .next (s.returnFromBreak)

/-- `PHA`, opcode 48 (R192, mode R85). -/
def execPha (s : State) : Result :=
  .next (s.push s.a)

/-- `PLA`, opcode 68 (R193, mode R85). -/
def execPla (s : State) : Result :=
  .next (s.pull.2.loadA s.pull.1)

/-- `PHP`, opcode 08 (R194, mode R85). -/
def execPhp (s : State) : Result :=
  .next (s.push (s.p ||| 0x30))

/-- `PLP`, opcode 28 (R195, mode R85). -/
def execPlp (s : State) : Result :=
  .next (s.pull.2.setP s.pull.1)

/-- `CLC`, opcode 18 (R200, mode R85). -/
def execClc (s : State) : Result :=
  .next (s.setFlag .c false)

/-- `SEC`, opcode 38 (R201, mode R85). -/
def execSec (s : State) : Result :=
  .next (s.setFlag .c true)

/-- `CLD`, opcode D8 (R202, mode R85). -/
def execCld (s : State) : Result :=
  .next (s.setFlag .d false)

/-- `SED`, opcode F8 (R203, mode R85). -/
def execSed (s : State) : Result :=
  .next (s.setFlag .d true)

/-- `CLI`, opcode 58 (R204, mode R85). -/
def execCli (s : State) : Result :=
  .next (s.setFlag .i false)

/-- `SEI`, opcode 78 (R205, mode R85). -/
def execSei (s : State) : Result :=
  .next (s.setFlag .i true)

/-- `CLV`, opcode B8 (R206, mode R85). -/
def execClv (s : State) : Result :=
  .next (s.setFlag .v false)

/-- `NOP`, opcode EA (R215, mode R85). -/
def execNop (s : State) : Result :=
  .next s

end Sys2Proof.Machine
end

