-- ==== Sys2Proof/Machine/Fetch.lean ====
section
/-! DEFINITION. Fetching an instruction: the opcode byte, then the operand bytes the opcode's format asks for, each by `Fetch8`. -/

namespace Sys2Proof.Machine

/-- `Fetch8()`: the byte at `PC`, and `PC` one further modulo 65536 (R21). -/
def State.fetch8 (s : State) : Byte × State := (s.memRead s.pc, s.setPc (s.pc + 1))

/-- What the fetch part of a step finds. -/
inductive Fetched
  /-- An instruction, and the state with `PC` past the fetched bytes. -/
  | instr (i : Instr) (s : State)
  /-- An unmapped opcode, and the state with `PC` past it; no further byte is read (R67). -/
  | unmapped (op : Byte) (s : State)
deriving DecidableEq, Repr

/-- The first half of a step (R80, R58): fetch the opcode, then its operand bytes in ascending address order. The padding byte of
`BRK` is not fetched (R59, R190). -/
def State.fetch (s : State) : Fetched :=
  let op := s.fetch8
  match pattern op.1 with
  | .op i => .instr i op.2
  | .opPad i => .instr i op.2
  | .opB form =>
    let b := op.2.fetch8
    .instr (form b.1) b.2
  | .opW form =>
    let lo := op.2.fetch8
    let hi := lo.2.fetch8
    .instr (form (mkWord lo.1 hi.1)) hi.2
  | .unmapped => .unmapped op.1 op.2

/-- The memory bytes from an address on, the addresses modulo 65536. -/
def State.bytesAt (s : State) (addr : Word) : Nat → List Byte
  | 0 => []
  | n + 1 => s.memRead addr :: s.bytesAt (addr + 1) n

/-- The state with bytes stored from an address on, the addresses modulo 65536. -/
def State.storeBytes (s : State) (addr : Word) : List Byte → State
  | [] => s
  | b :: bs => (s.memWrite addr b).storeBytes (addr + 1) bs

end Sys2Proof.Machine
end

