-- ==== Sys2Proof/Machine/Step.lean ====
section
/-! DEFINITION. The step of the machine, and the placing of an instruction where the next step fetches it. -/

namespace Sys2Proof.Machine

/-- One step (R80): fetch, then execute; an unmapped opcode ends it with `halt-unknown-opcode` (R81, R220). -/
def step (s : State) : Host.Outcome State Fault Refusal :=
  match s.fetch with
  | .instr i s1 => exec i s1
  | .unmapped op s1 => raiseUnknownOpcode op s1

/-- The state with an instruction, its bits numbered as spec/opcode_table.json numbers them, stored at `PC`; it stands for the caller's
populating the image (R243, log 7). -/
def State.withFetchWord (s : State) (nbits w : Nat) : State := s.storeBytes s.pc (tableBytes nbits w)

end Sys2Proof.Machine
end

