-- ==== Sys2Proof/Safety.lean ====
section
/-! DEFINITION. The terms claims use: the invariant, frames, who writes what, where an instruction stores, the rows of the opcode map
by operation, and the end of a run. None of them is used by the machine. -/

namespace Sys2Proof.Machine

/-- The invariant of the machine: memory is in canonical form. Every other field is free (R14, R15, R20: every value is legal). -/
abbrev State.Inv (s : State) : Prop := s.mem.wf = true

/-- The four 8-bit registers beside `P` (R10). -/
inductive Reg
  | a | x | y | s
deriving DecidableEq, Repr

/-- The value of a register. -/
def State.reg (s : State) : Reg → Byte
  | .a => s.a
  | .x => s.x
  | .y => s.y
  | .s => s.sp

/-- The frame of a change from `s` to `t`: the registers but `regs`, the flags but `flags` and the memory bytes but those at `stored`
are unchanged. It says nothing of `PC`. -/
structure Frame (regs : List Reg) (flags : List Flag) (stored : List Word) (s t : State) : Prop where
  regs : ∀ r, r ∉ regs → t.reg r = s.reg r
  flags : ∀ f, f ∉ flags → t.flag f = s.flag f
  mem : ∀ addr, addr ∉ stored → t.memRead addr = s.memRead addr

/-- N and Z of `t` are those of the result `v` (R27). -/
def SetsNZ (v : Byte) (t : State) : Prop := t.flag .n = v.getLsbD 7 ∧ t.flag .z = (v == 0)

/-- The two states are equal but for one flag. -/
structure AgreeBut (f : Flag) (s t : State) : Prop where
  a : t.a = s.a
  x : t.x = s.x
  y : t.y = s.y
  sp : t.sp = s.sp
  pc : t.pc = s.pc
  mem : t.mem = s.mem
  flags : ∀ g, g ≠ f → t.flag g = s.flag g

/-- The register a location is, if it is one (R83). -/
def Location.regs : Location → List Reg
  | .acc => [.a]
  | .mem _ => []

/-- The memory address a location is, if it is one (R83). -/
def Location.addrs : Location → List Word
  | .acc => []
  | .mem addr => [addr]

/-- The operations that write a flag: the "written by" column of R28's table. -/
def Flag.writers : Flag → List Mnemonic
  | .n => [.adc, .sbc, .and, .ora, .eor, .asl, .lsr, .rol, .ror, .cmp, .cpx, .cpy, .inc, .dec, .inx, .iny, .dex, .dey,
           .lda, .ldx, .ldy, .tax, .txa, .tay, .tya, .tsx, .pla, .bit, .plp, .rti]
  | .v => [.adc, .sbc, .bit, .clv, .plp, .rti]
  | .u => [.plp, .rti]
  | .b => [.plp, .rti]
  | .d => [.sed, .cld, .plp, .rti]
  | .i => [.sei, .cli, .brk, .plp, .rti]
  | .z => [.adc, .sbc, .and, .ora, .eor, .asl, .lsr, .rol, .ror, .cmp, .cpx, .cpy, .inc, .dec, .inx, .iny, .dex, .dey,
           .lda, .ldx, .ldy, .tax, .txa, .tay, .tya, .tsx, .pla, .bit, .plp, .rti]
  | .c => [.adc, .sbc, .asl, .lsr, .rol, .ror, .cmp, .cpx, .cpy, .sec, .clc, .plp, .rti]

/-- The operations that write a register: the "written by" column of the table under R13, but for the accumulator forms of the shifts. -/
def Reg.writers : Reg → List Mnemonic
  | .a => [.adc, .sbc, .and, .ora, .eor, .lda, .txa, .tya, .pla]
  | .x => [.ldx, .tax, .tsx, .inx, .dex]
  | .y => [.ldy, .tay, .iny, .dey]
  | .s => [.txs, .pha, .php, .jsr, .brk, .pla, .plp, .rts, .rti]

/-- The instruction writes the register, by the table under R13. -/
def writesReg (i : Instr) (r : Reg) : Bool :=
  r.writers.contains i.asm.mnemonic || (r == .a && i.asm.mode == .acc)

/-- The operations that write `PC` other than by fetching (R23). -/
def pcWriters : List Mnemonic :=
  [.bcc, .bcs, .bne, .beq, .bpl, .bmi, .bvc, .bvs, .jmp, .jsr, .rts, .brk, .rti]

/-- The addresses an instruction stores to, computed as its meaning computes them: the effective address of a store or a
read-modify-write in memory, the stack locations of a push (the table of R46). Every form not listed stores nothing. -/
def State.storedBy (s : State) : Instr → List Word
  | .aslZp b | .lsrZp b | .rolZp b | .rorZp b | .incZp b | .decZp b | .staZp b | .stxZp b | .styZp b =>
    [s.ea (.zp b)]
  | .aslZpx b | .lsrZpx b | .rolZpx b | .rorZpx b | .incZpx b | .decZpx b | .staZpx b | .styZpx b =>
    [s.ea (.zpx b)]
  | .aslAbs w | .lsrAbs w | .rolAbs w | .rorAbs w | .incAbs w | .decAbs w | .staAbs w | .stxAbs w | .styAbs w =>
    [s.ea (.abs w)]
  | .aslAbsx w | .lsrAbsx w | .rolAbsx w | .rorAbsx w | .incAbsx w | .decAbsx w | .staAbsx w =>
    [s.ea (.absx w)]
  | .staAbsy w =>
    [s.ea (.absy w)]
  | .staIndx b =>
    [s.ea (.indx b)]
  | .staIndy b =>
    [s.ea (.indy b)]
  | .stxZpy b =>
    [s.ea (.zpy b)]
  | .pha | .php => [stackAddr s.sp]
  | .jsr _ => [stackAddr s.sp, stackAddr (s.sp - 1)]
  | .brk => [stackAddr s.sp, stackAddr (s.sp - 1), stackAddr (s.sp - 2)]
  | _ => []

/-- The 105 unmapped opcode bytes, row by row as R67 lists them. -/
def unmappedOpcodes : List Byte :=
  [0x02, 0x03, 0x04, 0x07, 0x0B, 0x0C, 0x0F] ++
  [0x12, 0x13, 0x14, 0x17, 0x1A, 0x1B, 0x1C, 0x1F] ++
  [0x22, 0x23, 0x27, 0x2B, 0x2F] ++
  [0x32, 0x33, 0x34, 0x37, 0x3A, 0x3B, 0x3C, 0x3F] ++
  [0x42, 0x43, 0x44, 0x47, 0x4B, 0x4F] ++
  [0x52, 0x53, 0x54, 0x57, 0x5A, 0x5B, 0x5C, 0x5F] ++
  [0x62, 0x63, 0x64, 0x67, 0x6B, 0x6F] ++
  [0x72, 0x73, 0x74, 0x77, 0x7A, 0x7B, 0x7C, 0x7F] ++
  [0x80, 0x82, 0x83, 0x87, 0x89, 0x8B, 0x8F] ++
  [0x92, 0x93, 0x97, 0x9B, 0x9C, 0x9E, 0x9F] ++
  [0xA3, 0xA7, 0xAB, 0xAF] ++
  [0xB2, 0xB3, 0xB7, 0xBB, 0xBF] ++
  [0xC2, 0xC3, 0xC7, 0xCB, 0xCF] ++
  [0xD2, 0xD3, 0xD4, 0xD7, 0xDA, 0xDB, 0xDC, 0xDF] ++
  [0xE2, 0xE3, 0xE7, 0xEB, 0xEF] ++
  [0xF2, 0xF3, 0xF4, 0xF7, 0xFA, 0xFB, 0xFC, 0xFF]

/-- The rows of `ADC` in R66: opcode byte, instruction, operand. -/
def adcForms (b : Byte) (w : Word) : List (Byte × Instr × Source) :=
  [(0x69, .adcImm b, .imm b),
   (0x65, .adcZp b, .mem (.zp b)),
   (0x75, .adcZpx b, .mem (.zpx b)),
   (0x6D, .adcAbs w, .mem (.abs w)),
   (0x7D, .adcAbsx w, .mem (.absx w)),
   (0x79, .adcAbsy w, .mem (.absy w)),
   (0x61, .adcIndx b, .mem (.indx b)),
   (0x71, .adcIndy b, .mem (.indy b))]

/-- The rows of `SBC` in R66: opcode byte, instruction, operand. -/
def sbcForms (b : Byte) (w : Word) : List (Byte × Instr × Source) :=
  [(0xE9, .sbcImm b, .imm b),
   (0xE5, .sbcZp b, .mem (.zp b)),
   (0xF5, .sbcZpx b, .mem (.zpx b)),
   (0xED, .sbcAbs w, .mem (.abs w)),
   (0xFD, .sbcAbsx w, .mem (.absx w)),
   (0xF9, .sbcAbsy w, .mem (.absy w)),
   (0xE1, .sbcIndx b, .mem (.indx b)),
   (0xF1, .sbcIndy b, .mem (.indy b))]

/-- The rows of `AND` in R66: opcode byte, instruction, operand. -/
def andForms (b : Byte) (w : Word) : List (Byte × Instr × Source) :=
  [(0x29, .andImm b, .imm b),
   (0x25, .andZp b, .mem (.zp b)),
   (0x35, .andZpx b, .mem (.zpx b)),
   (0x2D, .andAbs w, .mem (.abs w)),
   (0x3D, .andAbsx w, .mem (.absx w)),
   (0x39, .andAbsy w, .mem (.absy w)),
   (0x21, .andIndx b, .mem (.indx b)),
   (0x31, .andIndy b, .mem (.indy b))]

/-- The rows of `ORA` in R66: opcode byte, instruction, operand. -/
def oraForms (b : Byte) (w : Word) : List (Byte × Instr × Source) :=
  [(0x09, .oraImm b, .imm b),
   (0x05, .oraZp b, .mem (.zp b)),
   (0x15, .oraZpx b, .mem (.zpx b)),
   (0x0D, .oraAbs w, .mem (.abs w)),
   (0x1D, .oraAbsx w, .mem (.absx w)),
   (0x19, .oraAbsy w, .mem (.absy w)),
   (0x01, .oraIndx b, .mem (.indx b)),
   (0x11, .oraIndy b, .mem (.indy b))]

/-- The rows of `EOR` in R66: opcode byte, instruction, operand. -/
def eorForms (b : Byte) (w : Word) : List (Byte × Instr × Source) :=
  [(0x49, .eorImm b, .imm b),
   (0x45, .eorZp b, .mem (.zp b)),
   (0x55, .eorZpx b, .mem (.zpx b)),
   (0x4D, .eorAbs w, .mem (.abs w)),
   (0x5D, .eorAbsx w, .mem (.absx w)),
   (0x59, .eorAbsy w, .mem (.absy w)),
   (0x41, .eorIndx b, .mem (.indx b)),
   (0x51, .eorIndy b, .mem (.indy b))]

/-- The rows of `CMP` in R66: opcode byte, instruction, operand. -/
def cmpForms (b : Byte) (w : Word) : List (Byte × Instr × Source) :=
  [(0xC9, .cmpImm b, .imm b),
   (0xC5, .cmpZp b, .mem (.zp b)),
   (0xD5, .cmpZpx b, .mem (.zpx b)),
   (0xCD, .cmpAbs w, .mem (.abs w)),
   (0xDD, .cmpAbsx w, .mem (.absx w)),
   (0xD9, .cmpAbsy w, .mem (.absy w)),
   (0xC1, .cmpIndx b, .mem (.indx b)),
   (0xD1, .cmpIndy b, .mem (.indy b))]

/-- The rows of `CPX` in R66: opcode byte, instruction, operand. -/
def cpxForms (b : Byte) (w : Word) : List (Byte × Instr × Source) :=
  [(0xE0, .cpxImm b, .imm b),
   (0xE4, .cpxZp b, .mem (.zp b)),
   (0xEC, .cpxAbs w, .mem (.abs w))]

/-- The rows of `CPY` in R66: opcode byte, instruction, operand. -/
def cpyForms (b : Byte) (w : Word) : List (Byte × Instr × Source) :=
  [(0xC0, .cpyImm b, .imm b),
   (0xC4, .cpyZp b, .mem (.zp b)),
   (0xCC, .cpyAbs w, .mem (.abs w))]

/-- The rows of `BIT` in R66: opcode byte, instruction, operand. -/
def bitForms (b : Byte) (w : Word) : List (Byte × Instr × Source) :=
  [(0x24, .bitZp b, .mem (.zp b)),
   (0x2C, .bitAbs w, .mem (.abs w))]

/-- The rows of `LDA` in R66: opcode byte, instruction, operand. -/
def ldaForms (b : Byte) (w : Word) : List (Byte × Instr × Source) :=
  [(0xA9, .ldaImm b, .imm b),
   (0xA5, .ldaZp b, .mem (.zp b)),
   (0xB5, .ldaZpx b, .mem (.zpx b)),
   (0xAD, .ldaAbs w, .mem (.abs w)),
   (0xBD, .ldaAbsx w, .mem (.absx w)),
   (0xB9, .ldaAbsy w, .mem (.absy w)),
   (0xA1, .ldaIndx b, .mem (.indx b)),
   (0xB1, .ldaIndy b, .mem (.indy b))]

/-- The rows of `LDX` in R66: opcode byte, instruction, operand. -/
def ldxForms (b : Byte) (w : Word) : List (Byte × Instr × Source) :=
  [(0xA2, .ldxImm b, .imm b),
   (0xA6, .ldxZp b, .mem (.zp b)),
   (0xB6, .ldxZpy b, .mem (.zpy b)),
   (0xAE, .ldxAbs w, .mem (.abs w)),
   (0xBE, .ldxAbsy w, .mem (.absy w))]

/-- The rows of `LDY` in R66: opcode byte, instruction, operand. -/
def ldyForms (b : Byte) (w : Word) : List (Byte × Instr × Source) :=
  [(0xA0, .ldyImm b, .imm b),
   (0xA4, .ldyZp b, .mem (.zp b)),
   (0xB4, .ldyZpx b, .mem (.zpx b)),
   (0xAC, .ldyAbs w, .mem (.abs w)),
   (0xBC, .ldyAbsx w, .mem (.absx w))]

/-- The rows of `ASL` in R66: opcode byte, instruction, location (R98). -/
def aslForms (b : Byte) (w : Word) (s : State) : List (Byte × Instr × Location) :=
  [(0x0A, .aslAcc, .acc),
   (0x06, .aslZp b, .mem (s.ea (.zp b))),
   (0x16, .aslZpx b, .mem (s.ea (.zpx b))),
   (0x0E, .aslAbs w, .mem (s.ea (.abs w))),
   (0x1E, .aslAbsx w, .mem (s.ea (.absx w)))]

/-- The rows of `LSR` in R66: opcode byte, instruction, location (R98). -/
def lsrForms (b : Byte) (w : Word) (s : State) : List (Byte × Instr × Location) :=
  [(0x4A, .lsrAcc, .acc),
   (0x46, .lsrZp b, .mem (s.ea (.zp b))),
   (0x56, .lsrZpx b, .mem (s.ea (.zpx b))),
   (0x4E, .lsrAbs w, .mem (s.ea (.abs w))),
   (0x5E, .lsrAbsx w, .mem (s.ea (.absx w)))]

/-- The rows of `ROL` in R66: opcode byte, instruction, location (R98). -/
def rolForms (b : Byte) (w : Word) (s : State) : List (Byte × Instr × Location) :=
  [(0x2A, .rolAcc, .acc),
   (0x26, .rolZp b, .mem (s.ea (.zp b))),
   (0x36, .rolZpx b, .mem (s.ea (.zpx b))),
   (0x2E, .rolAbs w, .mem (s.ea (.abs w))),
   (0x3E, .rolAbsx w, .mem (s.ea (.absx w)))]

/-- The rows of `ROR` in R66: opcode byte, instruction, location (R98). -/
def rorForms (b : Byte) (w : Word) (s : State) : List (Byte × Instr × Location) :=
  [(0x6A, .rorAcc, .acc),
   (0x66, .rorZp b, .mem (s.ea (.zp b))),
   (0x76, .rorZpx b, .mem (s.ea (.zpx b))),
   (0x6E, .rorAbs w, .mem (s.ea (.abs w))),
   (0x7E, .rorAbsx w, .mem (s.ea (.absx w)))]

/-- The rows of `INC` in R66: opcode byte, instruction, location (R98). -/
def incForms (b : Byte) (w : Word) (s : State) : List (Byte × Instr × Location) :=
  [(0xE6, .incZp b, .mem (s.ea (.zp b))),
   (0xF6, .incZpx b, .mem (s.ea (.zpx b))),
   (0xEE, .incAbs w, .mem (s.ea (.abs w))),
   (0xFE, .incAbsx w, .mem (s.ea (.absx w)))]

/-- The rows of `DEC` in R66: opcode byte, instruction, location (R98). -/
def decForms (b : Byte) (w : Word) (s : State) : List (Byte × Instr × Location) :=
  [(0xC6, .decZp b, .mem (s.ea (.zp b))),
   (0xD6, .decZpx b, .mem (s.ea (.zpx b))),
   (0xCE, .decAbs w, .mem (s.ea (.abs w))),
   (0xDE, .decAbsx w, .mem (s.ea (.absx w)))]

/-- The rows of `STA` in R66: opcode byte, instruction, memory operand. -/
def staForms (b : Byte) (w : Word) : List (Byte × Instr × MemOperand) :=
  [(0x85, .staZp b, .zp b),
   (0x95, .staZpx b, .zpx b),
   (0x8D, .staAbs w, .abs w),
   (0x9D, .staAbsx w, .absx w),
   (0x99, .staAbsy w, .absy w),
   (0x81, .staIndx b, .indx b),
   (0x91, .staIndy b, .indy b)]

/-- The rows of `STX` in R66: opcode byte, instruction, memory operand. -/
def stxForms (b : Byte) (w : Word) : List (Byte × Instr × MemOperand) :=
  [(0x86, .stxZp b, .zp b),
   (0x96, .stxZpy b, .zpy b),
   (0x8E, .stxAbs w, .abs w)]

/-- The rows of `STY` in R66: opcode byte, instruction, memory operand. -/
def styForms (b : Byte) (w : Word) : List (Byte × Instr × MemOperand) :=
  [(0x84, .styZp b, .zp b),
   (0x94, .styZpx b, .zpx b),
   (0x8C, .styAbs w, .abs w)]

/-- A run of `k` steps from `s` ends in the unmapped opcode `op` and leaves `t` (R248). -/
def RunEnds (k : Nat) (s : State) (op : Byte) (t : State) : Prop :=
  Host.Core.run Sys2Proof.core k s = .fault (.unknownOpcode op t)

end Sys2Proof.Machine
end

