-- ==== Sys2Proof/Certificates/Slice0/Obligations.lean ====
section
/-! DEFINITION. The statements for the provers. A per-instruction statement speaks of `exec`, the operation part of a step: its state
`s` has `PC` past the fetched bytes (R22), so a `PC` that stays is the address after the instruction. `StepRunsDecodedInstruction`
carries each of them to a step. In the statements over the rows of the opcode map, `b` and `w` range over every operand byte and every
two-byte operand, and `op` is the row's opcode byte (R66). -/

open Sys2Proof Sys2Proof.Machine

/-- R30, R31, R241: after construction every register is zero but `PC`, which is the entry address, and memory is the caller's image. -/
def Obligations.ConstructionResets : Prop :=
  ∀ (image : Word → Byte) (entry : Word),
    (State.construct image entry).a = 0x00 ∧ (State.construct image entry).x = 0x00 ∧ (State.construct image entry).y = 0x00 ∧
    (State.construct image entry).sp = 0x00 ∧ (State.construct image entry).p = 0x00 ∧
    (State.construct image entry).pc = entry ∧ (State.construct image entry).Inv ∧
    ∀ addr, (State.construct image entry).memRead addr = image addr

/-- The model's choice (log 1, log 2): `State.reset` is construction with the entry and the image of Config, and it is canonical. -/
def Obligations.ResetIsAConstruction : Prop :=
  State.construct (fun _ => Config.unlisted) Config.entry = State.reset ∧ State.reset.Inv

/-- R41: a write replaces one byte and nothing else, and a later read of the address returns it. -/
def Obligations.MemWriteReplacesOneByte : Prop :=
  ∀ (s : State) (addr : Word) (v : Byte),
    (s.memWrite addr v).memRead addr = v ∧ Frame [] [] [addr] s (s.memWrite addr v) ∧ (s.memWrite addr v).pc = s.pc ∧
    ∀ u, ((s.memWrite addr u).memWrite addr v).memRead addr = v

/-- R27: `SetNZ` writes N with bit 7 and Z with the zero test, both every time, and no other flag. -/
def Obligations.SetNZWritesBoth : Prop :=
  ∀ (s : State) (v : Byte),
    (s.setNZ v).flag .n = v.getLsbD 7 ∧ ((s.setNZ v).flag .z = true ↔ v.toNat = 0) ∧
    Frame [] [.n, .z] [] s (s.setNZ v) ∧ (s.setNZ v).pc = s.pc

/-- R47: `Push` writes at 0x0100 + S, then decrements S modulo 256. -/
def Obligations.PushWritesThenDecrements : Prop :=
  ∀ (s : State) (v : Byte),
    (stackAddr s.sp).toNat = 0x0100 + s.sp.toNat ∧ (s.push v).memRead (stackAddr s.sp) = v ∧
    (s.push v).sp.toNat = (s.sp.toNat + 255) % 256 ∧ (s.push v).pc = s.pc ∧
    Frame [.s] [] [stackAddr s.sp] s (s.push v)

/-- R48: `Pull` increments S modulo 256, then reads at 0x0100 + S and changes no byte; after a `Push` it returns the pushed byte and
restores S. -/
def Obligations.PullIncrementsThenReads : Prop :=
  ∀ (s : State) (v : Byte),
    s.pull.2.sp.toNat = (s.sp.toNat + 1) % 256 ∧ s.pull.1 = s.pull.2.memRead (stackAddr s.pull.2.sp) ∧
    (stackAddr s.pull.2.sp).toNat = 0x0100 + s.pull.2.sp.toNat ∧ s.pull.2.pc = s.pc ∧ Frame [.s] [] [] s s.pull.2 ∧
    (s.push v).pull.1 = v ∧ (s.push v).pull.2.sp = s.sp

/-- R50: a zero-page mode's address is kept to 8 bits, and so is the address of the second byte of a zero-page pointer. -/
def Obligations.ZeroPageArithmeticIsEightBit : Prop :=
  ∀ (s : State) (b : Byte),
    (s.ea (.zp b)).toNat = b.toNat ∧
    (s.ea (.zpx b)).toNat = (b.toNat + s.x.toNat) % 256 ∧
    (s.ea (.zpy b)).toNat = (b.toNat + s.y.toNat) % 256 ∧
    (∀ z : Byte, (s.pointer z).toNat = 256 * (s.mem.read ((z.toNat + 1) % 256)).toNat + (s.mem.read z.toNat).toNat) ∧
    (s.ea (.indx b)).toNat =
      256 * (s.mem.read ((b.toNat + s.x.toNat + 1) % 256)).toNat + (s.mem.read ((b.toNat + s.x.toNat) % 256)).toNat ∧
    (s.ea (.indy b)).toNat =
      (256 * (s.mem.read ((b.toNat + 1) % 256)).toNat + (s.mem.read b.toNat).toNat + s.y.toNat) % 65536

/-- R51, R89 to R91, R93: absolute addresses and indexes, and the indirect jump's pointer, are added modulo 65536. -/
def Obligations.AbsoluteArithmeticIsSixteenBit : Prop :=
  ∀ (s : State) (w : Word),
    s.ea (.abs w) = w ∧
    (s.ea (.absx w)).toNat = (w.toNat + s.x.toNat) % 65536 ∧
    (s.ea (.absy w)).toNat = (w.toNat + s.y.toNat) % 65536 ∧
    (s.memRead16 w).toNat = 256 * (s.mem.read ((w.toNat + 1) % 65536)).toNat + (s.mem.read w.toNat).toNat

/-- R80: a step fetches and decodes at `PC`, advances `PC` past the fetched bytes and executes; an unmapped opcode ends it. What
decodes is decided by the opcode and at most two bytes after it, so three bytes are never too few. -/
def Obligations.StepRunsDecodedInstruction : Prop :=
  ∀ s : State,
    (∀ i rest, decode (s.bytesAt s.pc 3) = .instr i rest →
      step s = exec i (s.setPc (s.pc + BitVec.ofNat 16 i.fetched))) ∧
    (∀ op, decode (s.bytesAt s.pc 3) = .unmapped op →
      op = s.memRead s.pc ∧ step s = .fault (.unknownOpcode op (s.setPc (s.pc + 1)))) ∧
    decode (s.bytesAt s.pc 3) ≠ .truncated

/-- R220, R67: the 105 bytes of R67's list are the ones that decode to nothing whatever follows them; one of them at `PC` ends the step
with `halt-unknown-opcode` carrying it, `PC` one past it and nothing else changed; no instruction raises it. -/
def Obligations.UnmappedOpcodeHalts : Prop :=
  unmappedOpcodes.length = 105 ∧ unmappedOpcodes.Nodup ∧
  (∀ op, op ∈ unmappedOpcodes ↔ ∀ bs, decode (op :: bs) = .unmapped op) ∧
  (∀ s : State, s.memRead s.pc ∈ unmappedOpcodes →
    step s = .fault (.unknownOpcode (s.memRead s.pc) { s with pc := s.pc + 1 })) ∧
  ∀ (i : Instr) (s : State) (op : Byte) (t : State), exec i s ≠ .fault (.unknownOpcode op t)

/-- R81: a step has exactly two outcomes, `continue` when the opcode byte is mapped and the halt when it is not; it never refuses. -/
def Obligations.StepHasTwoOutcomes : Prop :=
  ∀ s : State,
    (s.memRead s.pc ∉ unmappedOpcodes ∧ ∃ t, step s = .next t) ∨
    (s.memRead s.pc ∈ unmappedOpcodes ∧ ∃ t, step s = .fault (.unknownOpcode (s.memRead s.pc) t))

/-- R221: no instruction raises anything, whatever its operands and the state. -/
def Obligations.EveryInstructionCompletes : Prop :=
  ∀ (i : Instr) (s : State), ∃ t, exec i s = .next t

/-- R60, R63, R66: decoding an encoded instruction gives it back, for every instruction, operand, padding byte and following bytes. -/
def Obligations.DecodeInvertsEncode : Prop :=
  ∀ (i : Instr) (pad : Byte) (rest : List Byte), i.wellFormed = true → decode (encodeWith pad i ++ rest) = .instr i rest

/-- R65, R66, R69: what decodes is the encoding of what it decodes to, so no bit of an encoding is ignored but the padding byte's. -/
def Obligations.EncodeInvertsDecode : Prop :=
  ∀ (bs : List Byte) (i : Instr) (rest : List Byte), decode bs = .instr i rest → i.length ≤ bs.length →
    ∃ pad, bs = encodeWith pad i ++ rest

/-- Words written out from spec/opcode_table.json decode to what they stand for. -/
def Obligations.WrittenWordsDecode : Prop :=
  decode [0xA9, 0x05] = .instr (.ldaImm 0x05) [] ∧ decode [0x69, 0x03] = .instr (.adcImm 0x03) [] ∧
  decode [0x6C, 0xFF, 0x12] = .instr (.jmpInd 0x12FF) [] ∧ decode [0x00, 0xEA, 0x40] = .instr .brk [0x40] ∧
  decode [0x0A] = .instr .aslAcc [] ∧ decode [0xB6, 0x10] = .instr (.ldxZpy 0x10) [] ∧ decode [0xFF] = .unmapped 0xFF

/-- R56: an instruction stored at `PC` is what the next step runs, with no other action. -/
def Obligations.StoredInstructionIsRun : Prop :=
  ∀ (s : State) (i : Instr) (pad : Byte),
    step (s.storeBytes s.pc (encodeWith pad i)) =
      exec i ((s.storeBytes s.pc (encodeWith pad i)).setPc (s.pc + BitVec.ofNat 16 i.fetched))

/-- The host's placing of a table word is right: the next step runs what the decoder reads from the word. -/
def Obligations.PlacedWordIsRun : Prop :=
  ∀ (s : State) (nbits w : Nat) (i : Instr), decodeTableWord nbits w = some i →
    step (s.withFetchWord nbits w) = exec i ((s.withFetchWord nbits w).setPc (s.pc + BitVec.ofNat 16 i.fetched))

/-- R100: `ADC` in every mode: the 9-bit sum, its carry and signed overflow, N and Z; a step at the instruction leaves `PC` advanced by
its length. -/
def Obligations.AdcAddsWithCarry : Prop :=
  ∀ (b : Byte) (w : Word) (s : State) (op : Byte) (i : Instr) (src : Source), (op, i, src) ∈ adcForms b w →
    (encode i).head? = some op ∧
    (∃ t, exec i s = .next t ∧
      t.a.toNat = (s.a.toNat + (s.operandValue src).toNat + (s.flag .c).toNat) % 256 ∧
      t.flag .c = decide (s.a.toNat + (s.operandValue src).toNat + (s.flag .c).toNat > 255) ∧
      (t.flag .v = true ↔
        s.a.getLsbD 7 = (s.operandValue src).getLsbD 7 ∧ t.a.getLsbD 7 ≠ s.a.getLsbD 7) ∧
      SetsNZ t.a t ∧ t.pc = s.pc ∧ Frame [.a] [.n, .v, .z, .c] [] s t) ∧
    (s.bytesAt s.pc i.length = encode i → ∃ t, step s = .next t ∧ t.pc = s.pc + BitVec.ofNat 16 i.length)

/-- R101: `SBC` in every mode: the signed difference, C as no borrow, signed overflow, N and Z. -/
def Obligations.SbcSubtractsWithBorrow : Prop :=
  ∀ (b : Byte) (w : Word) (s : State) (op : Byte) (i : Instr) (src : Source), (op, i, src) ∈ sbcForms b w →
    (encode i).head? = some op ∧
    ∃ t, exec i s = .next t ∧
      (t.a.toNat : Int) = ((s.a.toNat : Int) - (s.operandValue src).toNat - (1 - (s.flag .c).toNat)) % 256 ∧
      t.flag .c = decide (0 ≤ (s.a.toNat : Int) - (s.operandValue src).toNat - (1 - (s.flag .c).toNat)) ∧
      (t.flag .v = true ↔
        s.a.getLsbD 7 ≠ (s.operandValue src).getLsbD 7 ∧ t.a.getLsbD 7 ≠ s.a.getLsbD 7) ∧
      SetsNZ t.a t ∧ t.pc = s.pc ∧ Frame [.a] [.n, .v, .z, .c] [] s t

/-- R102: the Decimal flag does not change what `ADC` and `SBC` compute. -/
def Obligations.DecimalFlagChangesNoArithmetic : Prop :=
  ∀ (b : Byte) (w : Word) (s : State) (d : Bool) (op : Byte) (i : Instr) (src : Source),
    (op, i, src) ∈ adcForms b w ++ sbcForms b w →
    ∃ t, exec i s = .next t ∧ exec i (s.setFlag .d d) = .next (t.setFlag .d d)

/-- R103 (a) and (b): `ADC` is commutative in its operand roles, and `SBC` of `m` is `ADC` of its complement, flags included. -/
def Obligations.AdcCommutesAndSbcIsAdcOfComplement : Prop :=
  ∀ (s : State) (a m : Byte),
    exec (.adcImm m) (s.setA a) = exec (.adcImm a) (s.setA m) ∧ exec (.sbcImm m) s = exec (.adcImm (~~~m)) s

/-- R110 to R112: `AND`, `ORA` and `EOR` in every mode. -/
def Obligations.LogicWritesAccumulator : Prop :=
  ∀ (b : Byte) (w : Word) (s : State) (op : Byte) (i : Instr) (src : Source),
    ((op, i, src) ∈ andForms b w → (encode i).head? = some op ∧
      ∃ t, exec i s = .next t ∧ t.a = s.a &&& s.operandValue src ∧ SetsNZ t.a t ∧ t.pc = s.pc ∧ Frame [.a] [.n, .z] [] s t) ∧
    ((op, i, src) ∈ oraForms b w → (encode i).head? = some op ∧
      ∃ t, exec i s = .next t ∧ t.a = s.a ||| s.operandValue src ∧ SetsNZ t.a t ∧ t.pc = s.pc ∧ Frame [.a] [.n, .z] [] s t) ∧
    ((op, i, src) ∈ eorForms b w → (encode i).head? = some op ∧
      ∃ t, exec i s = .next t ∧ t.a = s.a ^^^ s.operandValue src ∧ SetsNZ t.a t ∧ t.pc = s.pc ∧ Frame [.a] [.n, .z] [] s t)

/-- R120, R121: `ASL` and `LSR` of the accumulator and of memory. -/
def Obligations.ShiftsMoveOneBit : Prop :=
  ∀ (b : Byte) (w : Word) (s : State) (op : Byte) (i : Instr) (loc : Location),
    ((op, i, loc) ∈ aslForms b w s → (encode i).head? = some op ∧
      ∃ t, exec i s = .next t ∧ (t.locationRead loc).toNat = 2 * (s.locationRead loc).toNat % 256 ∧
        t.flag .c = (s.locationRead loc).getLsbD 7 ∧ SetsNZ (t.locationRead loc) t ∧ t.pc = s.pc ∧
        Frame loc.regs [.n, .z, .c] loc.addrs s t) ∧
    ((op, i, loc) ∈ lsrForms b w s → (encode i).head? = some op ∧
      ∃ t, exec i s = .next t ∧ (t.locationRead loc).toNat = (s.locationRead loc).toNat / 2 ∧
        t.flag .c = (s.locationRead loc).getLsbD 0 ∧ SetsNZ (t.locationRead loc) t ∧ t.pc = s.pc ∧
        Frame loc.regs [.n, .z, .c] loc.addrs s t)

/-- R122, R123: `ROL` and `ROR` of the accumulator and of memory: the vacated bit is the old carry. -/
def Obligations.RotatesGoThroughCarry : Prop :=
  ∀ (b : Byte) (w : Word) (s : State) (op : Byte) (i : Instr) (loc : Location),
    ((op, i, loc) ∈ rolForms b w s → (encode i).head? = some op ∧
      ∃ t, exec i s = .next t ∧
        (t.locationRead loc).toNat = (2 * (s.locationRead loc).toNat + (s.flag .c).toNat) % 256 ∧
        t.flag .c = (s.locationRead loc).getLsbD 7 ∧ SetsNZ (t.locationRead loc) t ∧ t.pc = s.pc ∧
        Frame loc.regs [.n, .z, .c] loc.addrs s t) ∧
    ((op, i, loc) ∈ rorForms b w s → (encode i).head? = some op ∧
      ∃ t, exec i s = .next t ∧
        (t.locationRead loc).toNat = (s.locationRead loc).toNat / 2 + 128 * (s.flag .c).toNat ∧
        t.flag .c = (s.locationRead loc).getLsbD 0 ∧ SetsNZ (t.locationRead loc) t ∧ t.pc = s.pc ∧
        Frame loc.regs [.n, .z, .c] loc.addrs s t)

/-- R123: `ROR` after `ROL` on the same location restores the value and the carry, in the accumulator and in memory. -/
def Obligations.RorUndoesRol : Prop :=
  ∀ (s : State) (w : Word),
    (∃ t u, exec .rolAcc s = .next t ∧ exec .rorAcc t = .next u ∧ u.a = s.a ∧ u.flag .c = s.flag .c) ∧
    (∃ t u, exec (.rolAbs w) s = .next t ∧ exec (.rorAbs w) t = .next u ∧ (∀ addr, u.memRead addr = s.memRead addr) ∧
      u.flag .c = s.flag .c)

/-- R122: a rotation through carry is a rotation of nine bits: nine of them on one location restore the value and the carry. -/
def Obligations.NineRotationsRestore : Prop :=
  ∀ (s : State) (loc : Location),
    ((fun u => u.rol loc)^[9] s).locationRead loc = s.locationRead loc ∧ ((fun u => u.rol loc)^[9] s).flag .c = s.flag .c ∧
    ((fun u => u.ror loc)^[9] s).locationRead loc = s.locationRead loc ∧ ((fun u => u.ror loc)^[9] s).flag .c = s.flag .c ∧
    ∀ w, exec .rolAcc s = .next (s.rol .acc) ∧ exec .rorAcc s = .next (s.ror .acc) ∧
      exec (.rolAbs w) s = .next (s.rol (.mem w)) ∧ exec (.rorAbs w) s = .next (s.ror (.mem w))

/-- R130 to R132: the compares in every mode: C is the unsigned comparison, N and Z are those of the wrapped difference, no register
changes. -/
def Obligations.ComparesWriteFlagsOnly : Prop :=
  ∀ (b : Byte) (w : Word) (s : State) (op : Byte) (i : Instr) (src : Source),
    ((op, i, src) ∈ cmpForms b w → (encode i).head? = some op ∧
      ∃ t, exec i s = .next t ∧ t.flag .c = decide ((s.operandValue src).toNat ≤ s.a.toNat) ∧
        SetsNZ (s.a - s.operandValue src) t ∧ t.pc = s.pc ∧ Frame [] [.n, .z, .c] [] s t) ∧
    ((op, i, src) ∈ cpxForms b w → (encode i).head? = some op ∧
      ∃ t, exec i s = .next t ∧ t.flag .c = decide ((s.operandValue src).toNat ≤ s.x.toNat) ∧
        SetsNZ (s.x - s.operandValue src) t ∧ t.pc = s.pc ∧ Frame [] [.n, .z, .c] [] s t) ∧
    ((op, i, src) ∈ cpyForms b w → (encode i).head? = some op ∧
      ∃ t, exec i s = .next t ∧ t.flag .c = decide ((s.operandValue src).toNat ≤ s.y.toNat) ∧
        SetsNZ (s.y - s.operandValue src) t ∧ t.pc = s.pc ∧ Frame [] [.n, .z, .c] [] s t)

/-- R133: `BIT` in both modes: N and V from the operand's bits 7 and 6, Z from `A & m`. -/
def Obligations.BitTestsOperand : Prop :=
  ∀ (b : Byte) (w : Word) (s : State) (op : Byte) (i : Instr) (src : Source), (op, i, src) ∈ bitForms b w →
    (encode i).head? = some op ∧
    ∃ t, exec i s = .next t ∧ t.flag .n = (s.operandValue src).getLsbD 7 ∧ t.flag .v = (s.operandValue src).getLsbD 6 ∧
      t.flag .z = (s.a &&& s.operandValue src == 0) ∧ t.pc = s.pc ∧ Frame [] [.n, .v, .z] [] s t

/-- R140, R141: `INC` and `DEC` of a memory byte wrap modulo 256 and touch neither C nor V. -/
def Obligations.IncDecMemoryWrap : Prop :=
  ∀ (b : Byte) (w : Word) (s : State) (op : Byte) (i : Instr) (loc : Location),
    ((op, i, loc) ∈ incForms b w s → (encode i).head? = some op ∧
      ∃ t, exec i s = .next t ∧ (t.locationRead loc).toNat = ((s.locationRead loc).toNat + 1) % 256 ∧
        SetsNZ (t.locationRead loc) t ∧ t.pc = s.pc ∧ Frame [] [.n, .z] loc.addrs s t) ∧
    ((op, i, loc) ∈ decForms b w s → (encode i).head? = some op ∧
      ∃ t, exec i s = .next t ∧ (t.locationRead loc).toNat = ((s.locationRead loc).toNat + 255) % 256 ∧
        SetsNZ (t.locationRead loc) t ∧ t.pc = s.pc ∧ Frame [] [.n, .z] loc.addrs s t)

/-- R142 to R145: `INX`, `INY`, `DEX` and `DEY`. -/
def Obligations.IncDecIndexWrap : Prop :=
  ∀ s : State,
    (encode .inx = [0xE8] ∧ ∃ t, exec .inx s = .next t ∧ t.x.toNat = (s.x.toNat + 1) % 256 ∧ SetsNZ t.x t ∧ t.pc = s.pc ∧
      Frame [.x] [.n, .z] [] s t) ∧
    (encode .iny = [0xC8] ∧ ∃ t, exec .iny s = .next t ∧ t.y.toNat = (s.y.toNat + 1) % 256 ∧ SetsNZ t.y t ∧ t.pc = s.pc ∧
      Frame [.y] [.n, .z] [] s t) ∧
    (encode .dex = [0xCA] ∧ ∃ t, exec .dex s = .next t ∧ t.x.toNat = (s.x.toNat + 255) % 256 ∧ SetsNZ t.x t ∧ t.pc = s.pc ∧
      Frame [.x] [.n, .z] [] s t) ∧
    (encode .dey = [0x88] ∧ ∃ t, exec .dey s = .next t ∧ t.y.toNat = (s.y.toNat + 255) % 256 ∧ SetsNZ t.y t ∧ t.pc = s.pc ∧
      Frame [.y] [.n, .z] [] s t)

/-- R150 to R152: `LDA`, `LDX` and `LDY` in every mode. -/
def Obligations.LoadsSetRegisterAndNZ : Prop :=
  ∀ (b : Byte) (w : Word) (s : State) (op : Byte) (i : Instr) (src : Source),
    ((op, i, src) ∈ ldaForms b w → (encode i).head? = some op ∧
      ∃ t, exec i s = .next t ∧ t.a = s.operandValue src ∧ SetsNZ t.a t ∧ t.pc = s.pc ∧ Frame [.a] [.n, .z] [] s t) ∧
    ((op, i, src) ∈ ldxForms b w → (encode i).head? = some op ∧
      ∃ t, exec i s = .next t ∧ t.x = s.operandValue src ∧ SetsNZ t.x t ∧ t.pc = s.pc ∧ Frame [.x] [.n, .z] [] s t) ∧
    ((op, i, src) ∈ ldyForms b w → (encode i).head? = some op ∧
      ∃ t, exec i s = .next t ∧ t.y = s.operandValue src ∧ SetsNZ t.y t ∧ t.pc = s.pc ∧ Frame [.y] [.n, .z] [] s t)

/-- R153 to R155: `STA`, `STX` and `STY` in every mode store one byte at the effective address and change nothing else. -/
def Obligations.StoresWriteOneByte : Prop :=
  ∀ (b : Byte) (w : Word) (s : State) (op : Byte) (i : Instr) (m : MemOperand),
    ((op, i, m) ∈ staForms b w → (encode i).head? = some op ∧
      ∃ t, exec i s = .next t ∧ t.memRead (s.ea m) = s.a ∧ t.pc = s.pc ∧ Frame [] [] [s.ea m] s t) ∧
    ((op, i, m) ∈ stxForms b w → (encode i).head? = some op ∧
      ∃ t, exec i s = .next t ∧ t.memRead (s.ea m) = s.x ∧ t.pc = s.pc ∧ Frame [] [] [s.ea m] s t) ∧
    ((op, i, m) ∈ styForms b w → (encode i).head? = some op ∧
      ∃ t, exec i s = .next t ∧ t.memRead (s.ea m) = s.y ∧ t.pc = s.pc ∧ Frame [] [] [s.ea m] s t)

/-- R156 to R161: the transfers; N and Z follow the copy into A, X or Y, and no flag changes when S is written. -/
def Obligations.TransfersCopy : Prop :=
  ∀ s : State,
    (encode .tax = [0xAA] ∧ ∃ t, exec .tax s = .next t ∧ t.x = s.a ∧ SetsNZ t.x t ∧ t.pc = s.pc ∧ Frame [.x] [.n, .z] [] s t) ∧
    (encode .txa = [0x8A] ∧ ∃ t, exec .txa s = .next t ∧ t.a = s.x ∧ SetsNZ t.a t ∧ t.pc = s.pc ∧ Frame [.a] [.n, .z] [] s t) ∧
    (encode .tay = [0xA8] ∧ ∃ t, exec .tay s = .next t ∧ t.y = s.a ∧ SetsNZ t.y t ∧ t.pc = s.pc ∧ Frame [.y] [.n, .z] [] s t) ∧
    (encode .tya = [0x98] ∧ ∃ t, exec .tya s = .next t ∧ t.a = s.y ∧ SetsNZ t.a t ∧ t.pc = s.pc ∧ Frame [.a] [.n, .z] [] s t) ∧
    (encode .tsx = [0xBA] ∧ ∃ t, exec .tsx s = .next t ∧ t.x = s.sp ∧ SetsNZ t.x t ∧ t.pc = s.pc ∧ Frame [.x] [.n, .z] [] s t) ∧
    (encode .txs = [0x9A] ∧ ∃ t, exec .txs s = .next t ∧ t.sp = s.x ∧ t.pc = s.pc ∧ Frame [.s] [] [] s t)

/-- R170 to R178: the eight branches. The operation starts with `PC` two past the opcode; a taken branch adds the signed displacement
modulo 65536; nothing else changes, taken or not. -/
def Obligations.BranchesAddDisplacement : Prop :=
  ∀ (s : State) (d op : Byte) (i : Instr) (taken : Bool),
    (op, i, taken) ∈ [(0x90, .bcc d, !s.flag .c), (0xB0, .bcs d, s.flag .c), (0xD0, .bne d, !s.flag .z), (0xF0, .beq d, s.flag .z),
      (0x10, .bpl d, !s.flag .n), (0x30, .bmi d, s.flag .n), (0x50, .bvc d, !s.flag .v), (0x70, .bvs d, s.flag .v)] →
    encode i = [op, d] ∧ (∀ u : State, u.bytesAt u.pc 2 = [op, d] → step u = exec i (u.setPc (u.pc + 2))) ∧
    ∃ t, exec i s = .next t ∧ Frame [] [] [] s t ∧
      (taken = true → (t.pc.toNat : Int) = ((s.pc.toNat : Int) + d.toInt) % 65536) ∧ (taken = false → t.pc = s.pc)

/-- R180: `JMP`, absolute and indirect. -/
def Obligations.JumpSetsPc : Prop :=
  ∀ (s : State) (w : Word),
    (encode (.jmpAbs w) = [0x4C, loByte w, hiByte w] ∧ ∃ t, exec (.jmpAbs w) s = .next t ∧ t.pc = w ∧ Frame [] [] [] s t) ∧
    (encode (.jmpInd w) = [0x6C, loByte w, hiByte w] ∧
      ∃ t, exec (.jmpInd w) s = .next t ∧ t.pc = mkWord (s.memRead w) (s.memRead (w + 1)) ∧ Frame [] [] [] s t)

/-- R181: `JSR` starts with `PC` three past its opcode, pushes the address of its last byte, high byte first, and jumps. -/
def Obligations.CallPushesReturnAddress : Prop :=
  ∀ (s : State) (w : Word),
    encode (.jsr w) = [0x20, loByte w, hiByte w] ∧
    (s.bytesAt s.pc 3 = [0x20, loByte w, hiByte w] → step s = exec (.jsr w) (s.setPc (s.pc + 3))) ∧
    ∃ t, exec (.jsr w) s = .next t ∧ t.pc = w ∧ t.sp = s.sp - 2 ∧
      t.memRead (stackAddr s.sp) = hiByte (s.pc - 1) ∧ t.memRead (stackAddr (s.sp - 1)) = loByte (s.pc - 1) ∧
      Frame [.s] [] [stackAddr s.sp, stackAddr (s.sp - 1)] s t

/-- R182: `RTS` pulls the address, low byte first, and adds one. -/
def Obligations.ReturnPullsAddressPlusOne : Prop :=
  ∀ s : State,
    encode .rts = [0x60] ∧
    ∃ t, exec .rts s = .next t ∧
      t.pc = mkWord (s.memRead (stackAddr (s.sp + 1))) (s.memRead (stackAddr (s.sp + 2))) + 1 ∧ t.sp = s.sp + 2 ∧
      Frame [.s] [] [] s t

/-- R183: a call followed at once by a return comes back to the byte after the call with the stack pointer restored. -/
def Obligations.CallThenReturnComesBack : Prop :=
  ∀ (s : State) (w : Word) (rest : List Byte), decode (s.bytesAt s.pc 3) = .instr (.jsr w) rest →
    ∃ t, step s = .next t ∧ t.pc = w ∧
      (t.memRead w = 0x60 →
        ∃ u, step t = .next u ∧ u.pc = s.pc + 3 ∧ u.sp = s.sp ∧
          Frame [] [] [stackAddr s.sp, stackAddr (s.sp - 1)] s u)

/-- R190: `BRK` starts with `PC` one past its opcode whatever the padding byte, skips that byte, pushes the address after it and
`P | 0x10`, loads `PC` from 0xFFFA and 0xFFFB and sets I. In the second half `s.pc` is the address of the padding byte. -/
def Obligations.BreakEntersThroughVector : Prop :=
  ∀ (s : State) (pad : Byte),
    encodeWith pad .brk = [0x00, pad] ∧ (s.memRead s.pc = 0x00 → step s = exec .brk (s.setPc (s.pc + 1))) ∧
    ∃ t, exec .brk s = .next t ∧
      t.memRead (stackAddr s.sp) = hiByte (s.pc + 1) ∧ t.memRead (stackAddr (s.sp - 1)) = loByte (s.pc + 1) ∧
      t.memRead (stackAddr (s.sp - 2)) = s.p ||| 0x10 ∧ t.sp = s.sp - 3 ∧
      t.pc = mkWord (s.memRead 0xFFFA) (s.memRead 0xFFFB) ∧ t.flag .i = true ∧
      Frame [.s] [.i] [stackAddr s.sp, stackAddr (s.sp - 1), stackAddr (s.sp - 2)] s t

/-- R191: `RTI` pulls `P` with U and B cleared, then `PC` with no adjustment. -/
def Obligations.ReturnFromBreakRestores : Prop :=
  ∀ s : State,
    encode .rti = [0x40] ∧
    ∃ t, exec .rti s = .next t ∧
      t.p = s.memRead (stackAddr (s.sp + 1)) &&& 0xCF ∧ t.flag .u = false ∧ t.flag .b = false ∧
      (∀ f, f ≠ .u → f ≠ .b → t.flag f = getFlag (s.memRead (stackAddr (s.sp + 1))) f) ∧
      t.pc = mkWord (s.memRead (stackAddr (s.sp + 2))) (s.memRead (stackAddr (s.sp + 3))) ∧ t.sp = s.sp + 3 ∧
      Frame [.s] [.n, .v, .u, .b, .d, .i, .z, .c] [] s t

/-- R191, R225: an `RTI` that follows a `BRK` resumes after the padding byte with the pre-break flags, U and B cleared. -/
def Obligations.BreakThenReturnResumes : Prop :=
  ∀ s : State, ∃ t, exec .brk s = .next t ∧ ∀ pc : Word,
    ∃ u, exec .rti (t.setPc pc) = .next u ∧ u.pc = s.pc + 1 ∧ u.p = s.p &&& 0xCF ∧ u.sp = s.sp ∧
      u.a = s.a ∧ u.x = s.x ∧ u.y = s.y

/-- R192 to R195: push and pull of the accumulator and of the flags. `PHP` forces bits 5 and 4 in the pushed copy, `PLP` masks nothing. -/
def Obligations.StackInstructionsMoveOneByte : Prop :=
  ∀ s : State,
    (encode .pha = [0x48] ∧ ∃ t, exec .pha s = .next t ∧ t.memRead (stackAddr s.sp) = s.a ∧ t.sp = s.sp - 1 ∧ t.pc = s.pc ∧
      Frame [.s] [] [stackAddr s.sp] s t) ∧
    (encode .pla = [0x68] ∧ ∃ t, exec .pla s = .next t ∧ t.a = s.memRead (stackAddr (s.sp + 1)) ∧ SetsNZ t.a t ∧ t.sp = s.sp + 1 ∧
      t.pc = s.pc ∧ Frame [.a, .s] [.n, .z] [] s t) ∧
    (encode .php = [0x08] ∧ ∃ t, exec .php s = .next t ∧ t.memRead (stackAddr s.sp) = s.p ||| 0x30 ∧ t.sp = s.sp - 1 ∧ t.pc = s.pc ∧
      Frame [.s] [] [stackAddr s.sp] s t) ∧
    (encode .plp = [0x28] ∧ ∃ t, exec .plp s = .next t ∧ t.p = s.memRead (stackAddr (s.sp + 1)) ∧ t.sp = s.sp + 1 ∧ t.pc = s.pc ∧
      Frame [.s] [.n, .v, .u, .b, .d, .i, .z, .c] [] s t)

/-- R193, R195: `PHA` then `PLA` restores A and S, with N and Z those of A; `PHP` then `PLP` restores S but leaves `P | 0x30`. -/
def Obligations.PushThenPull : Prop :=
  ∀ s : State,
    (∃ t u, exec .pha s = .next t ∧ exec .pla t = .next u ∧ u.a = s.a ∧ u.sp = s.sp ∧ SetsNZ s.a u) ∧
    (∃ t u, exec .php s = .next t ∧ exec .plp t = .next u ∧ u.p = s.p ||| 0x30 ∧ u.sp = s.sp)

/-- R200 to R206: each flag instruction writes its one bit and nothing else. -/
def Obligations.FlagInstructionsWriteOneBit : Prop :=
  ∀ (s : State) (op : Byte) (i : Instr) (f : Flag) (v : Bool),
    (op, i, f, v) ∈ [(0x18, .clc, .c, false), (0x38, .sec, .c, true), (0xD8, .cld, .d, false), (0xF8, .sed, .d, true),
      (0x58, .cli, .i, false), (0x78, .sei, .i, true), (0xB8, .clv, .v, false)] →
    encode i = [op] ∧ ∃ t, exec i s = .next t ∧ t.flag f = v ∧ t.pc = s.pc ∧ Frame [] [f] [] s t

/-- R215: `NOP` consumes its opcode byte and has no other effect. -/
def Obligations.NopOnlyAdvances : Prop :=
  ∀ s : State, encode .nop = [0xEA] ∧ exec .nop s = .next s ∧ (s.memRead s.pc = 0xEA → step s = .next { s with pc := s.pc + 1 })

/-- R28, the "written by" column: an instruction that is not among a flag's writers leaves the flag as it was. -/
def Obligations.OnlyWritersChangeAFlag : Prop :=
  ∀ (i : Instr) (s t : State) (f : Flag), exec i s = .next t → i.asm.mnemonic ∉ f.writers → t.flag f = s.flag f

/-- The table under R13: an instruction that is not among a register's writers leaves the register as it was. -/
def Obligations.OnlyWritersChangeARegister : Prop :=
  ∀ (i : Instr) (s t : State) (r : Reg), exec i s = .next t → writesReg i r = false → t.reg r = s.reg r

/-- R22, R23: an instruction that is not a control transfer leaves `PC` at the byte after it: a step that runs it advances `PC` by its
length. -/
def Obligations.OnlyControlTransfersMovePc : Prop :=
  ∀ (s t : State) (i : Instr) (rest : List Byte), decode (s.bytesAt s.pc 3) = .instr i rest → step s = .next t →
    i.asm.mnemonic ∉ pcWriters → t.pc = s.pc + BitVec.ofNat 16 i.length

/-- R46, R59: memory changes at the addresses an instruction stores to, computed as its meaning computes them, and nowhere else. -/
def Obligations.OnlyStoredBytesChange : Prop :=
  ∀ (i : Instr) (s t : State) (addr : Word), exec i s = .next t → addr ∉ s.storedBy i → t.memRead addr = s.memRead addr

/-- From every state whose memory is canonical, a step leaves a state whose memory is canonical, after a halt too. -/
def Obligations.StepKeepsCanonicalMemory : Prop :=
  ∀ s : State, s.Inv → (∀ t, step s = .next t → t.Inv) ∧ (∀ r, step s = .fault r → r.after.Inv)

/-- R29, R195: no step but a `PLP`'s makes U or B of `P` equal 1. -/
def Obligations.OnlyPlpRaisesUnusedAndBreak : Prop :=
  ∀ (s t : State) (f : Flag), f ∈ [Flag.u, Flag.b] → step s = .next t → s.memRead s.pc ≠ 0x28 → t.flag f = true → s.flag f = true

/-- R28, the "read by" column, with R102 and R224: no instruction reads B; only `BRK` reads U, and only `PHP` and `BRK` read D and I, to
push them. Any other instruction goes, from two states equal but for that flag, to states equal but, at most, for that flag. -/
def Obligations.UnusedBreakDecimalInterruptFlagsAreInert : Prop :=
  ∀ (i : Instr) (s : State) (f : Flag) (v : Bool), f ∈ [Flag.u, Flag.b, Flag.d, Flag.i] →
    (i = .php → f = .u ∨ f = .b) → (i = .brk → f = .b) →
    ∃ t u, exec i s = .next t ∧ exec i (s.setFlag f v) = .next u ∧ AgreeBut f t u

/-- R248, R220: a run that halts does so at its first unmapped opcode: the final state is the state before the last step with `PC` one
past the unmapped byte. A run here is steps of the core with nothing written between them (log 8, DEDUCED from R53 and D26, unsafe): with
a caller that writes during a run the statement says nothing. -/
def Obligations.RunEndsPastUnmappedOpcode : Prop :=
  ∀ (k : Nat) (s t : State) (op : Byte), RunEnds k s op t →
    op ∈ unmappedOpcodes ∧
    ∃ j u, j < k ∧ Host.Core.run Sys2Proof.core j s = .next u ∧ u.memRead u.pc = op ∧ t = { u with pc := u.pc + 1 }

/-- R32, R20: the observation shows the registers as they are, and `PC` whole and as its two bytes. -/
def Obligations.ObservationShowsRegisters : Prop :=
  ∀ s : State,
    s.observe.a = s.a ∧ s.observe.x = s.x ∧ s.observe.y = s.y ∧ s.observe.s = s.sp ∧ s.observe.p = s.p ∧ s.observe.pc = s.pc ∧
    s.pc.toNat = 256 * s.observe.pch.toNat + s.observe.pcl.toNat
end

