-- ==== Sys2Proof/Laws/State.lean ====
section
/-! SUPPORT. One lemma per field per update of the state, each true by rfl, so that no proof unfolds a record update. -/

namespace Sys2Proof.Machine

variable (s : State)

@[simp] theorem State.setA_a (v : Byte) : (s.setA v).a = v := rfl
@[simp] theorem State.setA_x (v : Byte) : (s.setA v).x = s.x := rfl
@[simp] theorem State.setA_y (v : Byte) : (s.setA v).y = s.y := rfl
@[simp] theorem State.setA_sp (v : Byte) : (s.setA v).sp = s.sp := rfl
@[simp] theorem State.setA_p (v : Byte) : (s.setA v).p = s.p := rfl
@[simp] theorem State.setA_pc (v : Byte) : (s.setA v).pc = s.pc := rfl
@[simp] theorem State.setA_mem (v : Byte) : (s.setA v).mem = s.mem := rfl
@[simp] theorem State.setA_flag (v : Byte) (g : Flag) : (s.setA v).flag g = s.flag g := rfl
@[simp] theorem State.setA_memRead (v : Byte) (addr : Word) : (s.setA v).memRead addr = s.memRead addr := rfl

@[simp] theorem State.setX_a (v : Byte) : (s.setX v).a = s.a := rfl
@[simp] theorem State.setX_x (v : Byte) : (s.setX v).x = v := rfl
@[simp] theorem State.setX_y (v : Byte) : (s.setX v).y = s.y := rfl
@[simp] theorem State.setX_sp (v : Byte) : (s.setX v).sp = s.sp := rfl
@[simp] theorem State.setX_p (v : Byte) : (s.setX v).p = s.p := rfl
@[simp] theorem State.setX_pc (v : Byte) : (s.setX v).pc = s.pc := rfl
@[simp] theorem State.setX_mem (v : Byte) : (s.setX v).mem = s.mem := rfl
@[simp] theorem State.setX_flag (v : Byte) (g : Flag) : (s.setX v).flag g = s.flag g := rfl
@[simp] theorem State.setX_memRead (v : Byte) (addr : Word) : (s.setX v).memRead addr = s.memRead addr := rfl

@[simp] theorem State.setY_a (v : Byte) : (s.setY v).a = s.a := rfl
@[simp] theorem State.setY_x (v : Byte) : (s.setY v).x = s.x := rfl
@[simp] theorem State.setY_y (v : Byte) : (s.setY v).y = v := rfl
@[simp] theorem State.setY_sp (v : Byte) : (s.setY v).sp = s.sp := rfl
@[simp] theorem State.setY_p (v : Byte) : (s.setY v).p = s.p := rfl
@[simp] theorem State.setY_pc (v : Byte) : (s.setY v).pc = s.pc := rfl
@[simp] theorem State.setY_mem (v : Byte) : (s.setY v).mem = s.mem := rfl
@[simp] theorem State.setY_flag (v : Byte) (g : Flag) : (s.setY v).flag g = s.flag g := rfl
@[simp] theorem State.setY_memRead (v : Byte) (addr : Word) : (s.setY v).memRead addr = s.memRead addr := rfl

@[simp] theorem State.setSp_a (v : Byte) : (s.setSp v).a = s.a := rfl
@[simp] theorem State.setSp_x (v : Byte) : (s.setSp v).x = s.x := rfl
@[simp] theorem State.setSp_y (v : Byte) : (s.setSp v).y = s.y := rfl
@[simp] theorem State.setSp_sp (v : Byte) : (s.setSp v).sp = v := rfl
@[simp] theorem State.setSp_p (v : Byte) : (s.setSp v).p = s.p := rfl
@[simp] theorem State.setSp_pc (v : Byte) : (s.setSp v).pc = s.pc := rfl
@[simp] theorem State.setSp_mem (v : Byte) : (s.setSp v).mem = s.mem := rfl
@[simp] theorem State.setSp_flag (v : Byte) (g : Flag) : (s.setSp v).flag g = s.flag g := rfl
@[simp] theorem State.setSp_memRead (v : Byte) (addr : Word) : (s.setSp v).memRead addr = s.memRead addr := rfl

@[simp] theorem State.setP_a (v : Byte) : (s.setP v).a = s.a := rfl
@[simp] theorem State.setP_x (v : Byte) : (s.setP v).x = s.x := rfl
@[simp] theorem State.setP_y (v : Byte) : (s.setP v).y = s.y := rfl
@[simp] theorem State.setP_sp (v : Byte) : (s.setP v).sp = s.sp := rfl
@[simp] theorem State.setP_p (v : Byte) : (s.setP v).p = v := rfl
@[simp] theorem State.setP_pc (v : Byte) : (s.setP v).pc = s.pc := rfl
@[simp] theorem State.setP_mem (v : Byte) : (s.setP v).mem = s.mem := rfl
@[simp] theorem State.setP_memRead (v : Byte) (addr : Word) : (s.setP v).memRead addr = s.memRead addr := rfl

@[simp] theorem State.setPc_a (w : Word) : (s.setPc w).a = s.a := rfl
@[simp] theorem State.setPc_x (w : Word) : (s.setPc w).x = s.x := rfl
@[simp] theorem State.setPc_y (w : Word) : (s.setPc w).y = s.y := rfl
@[simp] theorem State.setPc_sp (w : Word) : (s.setPc w).sp = s.sp := rfl
@[simp] theorem State.setPc_p (w : Word) : (s.setPc w).p = s.p := rfl
@[simp] theorem State.setPc_pc (w : Word) : (s.setPc w).pc = w := rfl
@[simp] theorem State.setPc_mem (w : Word) : (s.setPc w).mem = s.mem := rfl
@[simp] theorem State.setPc_flag (w : Word) (g : Flag) : (s.setPc w).flag g = s.flag g := rfl
@[simp] theorem State.setPc_memRead (w : Word) (addr : Word) : (s.setPc w).memRead addr = s.memRead addr := rfl

@[simp] theorem State.memWrite_a (k : Word) (v : Byte) : (s.memWrite k v).a = s.a := rfl
@[simp] theorem State.memWrite_x (k : Word) (v : Byte) : (s.memWrite k v).x = s.x := rfl
@[simp] theorem State.memWrite_y (k : Word) (v : Byte) : (s.memWrite k v).y = s.y := rfl
@[simp] theorem State.memWrite_sp (k : Word) (v : Byte) : (s.memWrite k v).sp = s.sp := rfl
@[simp] theorem State.memWrite_p (k : Word) (v : Byte) : (s.memWrite k v).p = s.p := rfl
@[simp] theorem State.memWrite_pc (k : Word) (v : Byte) : (s.memWrite k v).pc = s.pc := rfl
@[simp] theorem State.memWrite_mem (k : Word) (v : Byte) : (s.memWrite k v).mem = s.mem.write k.toNat v := rfl
@[simp] theorem State.memWrite_flag (k : Word) (v : Byte) (g : Flag) : (s.memWrite k v).flag g = s.flag g := rfl

@[simp] theorem State.setFlag_a (f : Flag) (v : Bool) : (s.setFlag f v).a = s.a := rfl
@[simp] theorem State.setFlag_x (f : Flag) (v : Bool) : (s.setFlag f v).x = s.x := rfl
@[simp] theorem State.setFlag_y (f : Flag) (v : Bool) : (s.setFlag f v).y = s.y := rfl
@[simp] theorem State.setFlag_sp (f : Flag) (v : Bool) : (s.setFlag f v).sp = s.sp := rfl
@[simp] theorem State.setFlag_p (f : Flag) (v : Bool) : (s.setFlag f v).p = putFlag s.p f v := rfl
@[simp] theorem State.setFlag_pc (f : Flag) (v : Bool) : (s.setFlag f v).pc = s.pc := rfl
@[simp] theorem State.setFlag_mem (f : Flag) (v : Bool) : (s.setFlag f v).mem = s.mem := rfl
@[simp] theorem State.setFlag_memRead (f : Flag) (v : Bool) (addr : Word) : (s.setFlag f v).memRead addr = s.memRead addr := rfl

@[simp] theorem State.setNZ_a (v : Byte) : (s.setNZ v).a = s.a := rfl
@[simp] theorem State.setNZ_x (v : Byte) : (s.setNZ v).x = s.x := rfl
@[simp] theorem State.setNZ_y (v : Byte) : (s.setNZ v).y = s.y := rfl
@[simp] theorem State.setNZ_sp (v : Byte) : (s.setNZ v).sp = s.sp := rfl
@[simp] theorem State.setNZ_p (v : Byte) : (s.setNZ v).p = putNZ s.p v := rfl
@[simp] theorem State.setNZ_pc (v : Byte) : (s.setNZ v).pc = s.pc := rfl
@[simp] theorem State.setNZ_mem (v : Byte) : (s.setNZ v).mem = s.mem := rfl
@[simp] theorem State.setNZ_memRead (v : Byte) (addr : Word) : (s.setNZ v).memRead addr = s.memRead addr := rfl

@[simp] theorem State.loadA_a (v : Byte) : (s.loadA v).a = v := rfl
@[simp] theorem State.loadA_x (v : Byte) : (s.loadA v).x = s.x := rfl
@[simp] theorem State.loadA_y (v : Byte) : (s.loadA v).y = s.y := rfl
@[simp] theorem State.loadA_sp (v : Byte) : (s.loadA v).sp = s.sp := rfl
@[simp] theorem State.loadA_p (v : Byte) : (s.loadA v).p = putNZ s.p v := rfl
@[simp] theorem State.loadA_pc (v : Byte) : (s.loadA v).pc = s.pc := rfl
@[simp] theorem State.loadA_mem (v : Byte) : (s.loadA v).mem = s.mem := rfl
@[simp] theorem State.loadA_memRead (v : Byte) (addr : Word) : (s.loadA v).memRead addr = s.memRead addr := rfl

@[simp] theorem State.loadX_a (v : Byte) : (s.loadX v).a = s.a := rfl
@[simp] theorem State.loadX_x (v : Byte) : (s.loadX v).x = v := rfl
@[simp] theorem State.loadX_y (v : Byte) : (s.loadX v).y = s.y := rfl
@[simp] theorem State.loadX_sp (v : Byte) : (s.loadX v).sp = s.sp := rfl
@[simp] theorem State.loadX_p (v : Byte) : (s.loadX v).p = putNZ s.p v := rfl
@[simp] theorem State.loadX_pc (v : Byte) : (s.loadX v).pc = s.pc := rfl
@[simp] theorem State.loadX_mem (v : Byte) : (s.loadX v).mem = s.mem := rfl
@[simp] theorem State.loadX_memRead (v : Byte) (addr : Word) : (s.loadX v).memRead addr = s.memRead addr := rfl

@[simp] theorem State.loadY_a (v : Byte) : (s.loadY v).a = s.a := rfl
@[simp] theorem State.loadY_x (v : Byte) : (s.loadY v).x = s.x := rfl
@[simp] theorem State.loadY_y (v : Byte) : (s.loadY v).y = v := rfl
@[simp] theorem State.loadY_sp (v : Byte) : (s.loadY v).sp = s.sp := rfl
@[simp] theorem State.loadY_p (v : Byte) : (s.loadY v).p = putNZ s.p v := rfl
@[simp] theorem State.loadY_pc (v : Byte) : (s.loadY v).pc = s.pc := rfl
@[simp] theorem State.loadY_mem (v : Byte) : (s.loadY v).mem = s.mem := rfl
@[simp] theorem State.loadY_memRead (v : Byte) (addr : Word) : (s.loadY v).memRead addr = s.memRead addr := rfl

@[simp] theorem State.push_a (v : Byte) : (s.push v).a = s.a := rfl
@[simp] theorem State.push_x (v : Byte) : (s.push v).x = s.x := rfl
@[simp] theorem State.push_y (v : Byte) : (s.push v).y = s.y := rfl
@[simp] theorem State.push_sp (v : Byte) : (s.push v).sp = s.sp - 1 := rfl
@[simp] theorem State.push_p (v : Byte) : (s.push v).p = s.p := rfl
@[simp] theorem State.push_pc (v : Byte) : (s.push v).pc = s.pc := rfl
@[simp] theorem State.push_mem (v : Byte) : (s.push v).mem = s.mem.write (stackAddr s.sp).toNat v := rfl
@[simp] theorem State.push_flag (v : Byte) (g : Flag) : (s.push v).flag g = s.flag g := rfl

@[simp] theorem State.pull_a : s.pull.2.a = s.a := rfl
@[simp] theorem State.pull_x : s.pull.2.x = s.x := rfl
@[simp] theorem State.pull_y : s.pull.2.y = s.y := rfl
@[simp] theorem State.pull_sp : s.pull.2.sp = s.sp + 1 := rfl
@[simp] theorem State.pull_p : s.pull.2.p = s.p := rfl
@[simp] theorem State.pull_pc : s.pull.2.pc = s.pc := rfl
@[simp] theorem State.pull_mem : s.pull.2.mem = s.mem := rfl
@[simp] theorem State.pull_flag (g : Flag) : s.pull.2.flag g = s.flag g := rfl
@[simp] theorem State.pull_memRead (addr : Word) : s.pull.2.memRead addr = s.memRead addr := rfl

@[simp] theorem State.pushWord_a (w : Word) : (s.pushWord w).a = s.a := rfl
@[simp] theorem State.pushWord_x (w : Word) : (s.pushWord w).x = s.x := rfl
@[simp] theorem State.pushWord_y (w : Word) : (s.pushWord w).y = s.y := rfl
@[simp] theorem State.pushWord_sp (w : Word) : (s.pushWord w).sp = s.sp - 1 - 1 := rfl
@[simp] theorem State.pushWord_p (w : Word) : (s.pushWord w).p = s.p := rfl
@[simp] theorem State.pushWord_pc (w : Word) : (s.pushWord w).pc = s.pc := rfl
@[simp] theorem State.pushWord_mem (w : Word) : (s.pushWord w).mem = (s.mem.write (stackAddr s.sp).toNat (hiByte w)).write (stackAddr (s.sp - 1)).toNat (loByte w) := rfl
@[simp] theorem State.pushWord_flag (w : Word) (g : Flag) : (s.pushWord w).flag g = s.flag g := rfl

@[simp] theorem State.pullWord_a : s.pullWord.2.a = s.a := rfl
@[simp] theorem State.pullWord_x : s.pullWord.2.x = s.x := rfl
@[simp] theorem State.pullWord_y : s.pullWord.2.y = s.y := rfl
@[simp] theorem State.pullWord_sp : s.pullWord.2.sp = s.sp + 1 + 1 := rfl
@[simp] theorem State.pullWord_p : s.pullWord.2.p = s.p := rfl
@[simp] theorem State.pullWord_pc : s.pullWord.2.pc = s.pc := rfl
@[simp] theorem State.pullWord_mem : s.pullWord.2.mem = s.mem := rfl
@[simp] theorem State.pullWord_flag (g : Flag) : s.pullWord.2.flag g = s.flag g := rfl
@[simp] theorem State.pullWord_memRead (addr : Word) : s.pullWord.2.memRead addr = s.memRead addr := rfl

@[simp] theorem State.pull_value : s.pull.1 = s.memRead (stackAddr (s.sp + 1)) := rfl
@[simp] theorem State.pullWord_value :
    s.pullWord.1 = mkWord (s.memRead (stackAddr (s.sp + 1))) (s.memRead (stackAddr (s.sp + 1 + 1))) := rfl

/-- A state is its seven fields. -/
theorem State.ext_fields {s t : State} (ha : s.a = t.a) (hx : s.x = t.x) (hy : s.y = t.y) (hs : s.sp = t.sp) (hp : s.p = t.p)
    (hpc : s.pc = t.pc) (hm : s.mem = t.mem) : s = t := by
  cases s; cases t; simp_all

end Sys2Proof.Machine
end

