-- ==== Sys2Proof/Laws/Flags.lean ====
section
/-! SUPPORT. The flag laws: reading a flag after writing flags (R3, R15, R27). -/

namespace Sys2Proof.Machine

/-- Reading a flag of a status byte after one flag was written. -/
@[simp] theorem getFlag_putFlag (p : Byte) (f g : Flag) (v : Bool) :
    getFlag (putFlag p f v) g = if g = f then v else getFlag p g := by
  cases f <;> cases g <;> cases v <;> simp [getFlag, putFlag, Flag.mask, Flag.bit]

/-- Reading a flag of a status byte after `SetNZ` (R27). -/
@[simp] theorem getFlag_putNZ (p v : Byte) (g : Flag) :
    getFlag (putNZ p v) g = if g = .z then (v == 0) else if g = .n then v.getLsbD 7 else getFlag p g := by
  simp [putNZ]

@[simp] theorem State.setP_flag (s : State) (p : Byte) (g : Flag) : (s.setP p).flag g = getFlag p g := rfl

@[simp] theorem State.setFlag_flag (s : State) (f g : Flag) (v : Bool) :
    (s.setFlag f v).flag g = if g = f then v else s.flag g := getFlag_putFlag ..

@[simp] theorem State.setNZ_flag (s : State) (v : Byte) (g : Flag) :
    (s.setNZ v).flag g = if g = .z then (v == 0) else if g = .n then v.getLsbD 7 else s.flag g := getFlag_putNZ ..

@[simp] theorem State.loadA_flag (s : State) (v : Byte) (g : Flag) :
    (s.loadA v).flag g = if g = .z then (v == 0) else if g = .n then v.getLsbD 7 else s.flag g := getFlag_putNZ ..

@[simp] theorem State.loadX_flag (s : State) (v : Byte) (g : Flag) :
    (s.loadX v).flag g = if g = .z then (v == 0) else if g = .n then v.getLsbD 7 else s.flag g := getFlag_putNZ ..

@[simp] theorem State.loadY_flag (s : State) (v : Byte) (g : Flag) :
    (s.loadY v).flag g = if g = .z then (v == 0) else if g = .n then v.getLsbD 7 else s.flag g := getFlag_putNZ ..

/-- A status byte is its eight flags (R15). -/
theorem flags_ext {p q : Byte} (h : ∀ f, getFlag p f = getFlag q f) : p = q := by
  apply BitVec.eq_of_getLsbD_eq
  intro i hi
  have : i = 0 ∨ i = 1 ∨ i = 2 ∨ i = 3 ∨ i = 4 ∨ i = 5 ∨ i = 6 ∨ i = 7 := by omega
  rcases this with rfl | rfl | rfl | rfl | rfl | rfl | rfl | rfl
  exacts [h .c, h .z, h .i, h .d, h .b, h .u, h .v, h .n]

/-- A state is its fields, `P` being its eight flags. -/
theorem State.ext_flags {s t : State} (ha : s.a = t.a) (hx : s.x = t.x) (hy : s.y = t.y) (hs : s.sp = t.sp) (hpc : s.pc = t.pc)
    (hm : s.mem = t.mem) (hf : ∀ f, s.flag f = t.flag f) : s = t :=
  State.ext_fields ha hx hy hs (flags_ext hf) hpc hm

/-- Writing a flag twice keeps the last value. -/
theorem putFlag_putFlag (p : Byte) (f : Flag) (u v : Bool) : putFlag (putFlag p f u) f v = putFlag p f v :=
  flags_ext fun g => by by_cases h : g = f <;> simp [h]

/-- Writes of two different flags commute. -/
theorem putFlag_comm (p : Byte) {f g : Flag} (h : f ≠ g) (u v : Bool) :
    putFlag (putFlag p f u) g v = putFlag (putFlag p g v) f u :=
  flags_ext fun k => by by_cases hf : k = f <;> by_cases hg : k = g <;> simp_all

end Sys2Proof.Machine
end

