-- ==== Sys2Proof/Laws/Memory.lean ====
section
/-! SUPPORT. The memory laws: read after write (R40, R41), canonical form, and images (R31). -/

namespace Sys2Proof.Machine

theorem Memory.read_erase (m : Memory) (a b : Nat) :
    (m.erase a).read b = if b = a then Config.unlisted else m.read b := by
  induction m with
  | nil => simp [Memory.erase, Memory.read]
  | cons c m ih =>
    obtain ⟨k, v⟩ := c
    unfold Memory.erase at ih ⊢
    by_cases hk : k = a
    · subst hk
      simp only [List.filter_cons, bne_self_eq_false, Bool.false_eq_true, if_false, ih]
      by_cases hb : b = k
      · simp [hb]
      · simp [hb, Memory.read, Ne.symm hb]
    · simp only [List.filter_cons, bne_iff_ne, ne_eq, hk, not_false_eq_true, if_true, Memory.read, ih]
      by_cases hb : k = b
      · subst hb; simp [hk]
      · simp [hb]

theorem Memory.read_insert (m : Memory) (a b : Nat) (v : Byte) (h : m.read a = Config.unlisted ∧ ∀ c ∈ m, c.1 ≠ a) :
    (m.insert a v).read b = if b = a then v else m.read b := by
  induction m with
  | nil => by_cases hb : a = b <;> simp [Memory.insert, Memory.read, hb, eq_comm]
  | cons c m ih =>
    obtain ⟨k, u⟩ := c
    have hk : k ≠ a := h.2 (k, u) (by simp)
    have hr : Memory.read m a = Config.unlisted := by simpa [Memory.read, hk] using h.1
    have ih := ih ⟨hr, fun c hc => h.2 c (by simp [hc])⟩
    unfold Memory.insert
    split
    · by_cases hb : a = b <;> simp [Memory.read, hb, eq_comm]
    · simp only [Memory.read, ih]
      by_cases hb : k = b
      · subst hb; simp [hk]
      · simp [hb]

theorem Memory.erase_ne (m : Memory) (a : Nat) : ∀ c ∈ m.erase a, c.1 ≠ a := by
  simp [Memory.erase]

/-- Reading after a write, of every memory, canonical or not (R40, R41). -/
@[simp] theorem Memory.read_write (m : Memory) (a b : Nat) (v : Byte) :
    (m.write a v).read b = if b = a then v else m.read b := by
  unfold Memory.write
  split
  · next h => simp [Memory.read_erase, h]
  · rw [Memory.read_insert _ _ _ _ ⟨by simp [Memory.read_erase], m.erase_ne a⟩, Memory.read_erase]
    by_cases hb : b = a <;> simp [hb]

/-- `MemRead` after `MemWrite` (R40, R41). -/
@[simp] theorem State.memWrite_memRead (s : State) (a b : Word) (v : Byte) :
    (s.memWrite a v).memRead b = if b = a then v else s.memRead b := by
  simp [State.memRead, BitVec.toNat_inj]

/-- `MemRead` after `Push` (R47). -/
@[simp] theorem State.push_memRead (s : State) (b : Word) (v : Byte) :
    (s.push v).memRead b = if b = stackAddr s.sp then v else s.memRead b := State.memWrite_memRead ..

/-- The canonical form in words. -/
theorem Memory.wf_iff (m : Memory) :
    m.wf = true ↔ m.Pairwise (fun c d => c.1 < d.1) ∧ ∀ c ∈ m, c.1 < 65536 ∧ c.2 ≠ Config.unlisted := by
  simp [Memory.wf]

theorem Memory.wf_erase {m : Memory} (h : m.wf = true) (a : Nat) : (m.erase a).wf = true := by
  rw [Memory.wf_iff] at h ⊢
  exact ⟨h.1.filter _, fun c hc => h.2 c (List.mem_of_mem_filter hc)⟩

theorem Memory.mem_insert {m : Memory} {a : Nat} {v : Byte} {c : Host.Cell} :
    c ∈ m.insert a v ↔ c = (a, v) ∨ c ∈ m := by
  induction m with
  | nil => simp [Memory.insert]
  | cons d m ih =>
    obtain ⟨k, u⟩ := d
    unfold Memory.insert
    split
    · simp
    · simp only [List.mem_cons, ih]; tauto

theorem Memory.wf_insert {m : Memory} (h : m.wf = true) {a : Nat} {v : Byte} (ha : a < 65536) (hv : v ≠ Config.unlisted)
    (hn : ∀ c ∈ m, c.1 ≠ a) : (m.insert a v).wf = true := by
  rw [Memory.wf_iff] at h ⊢
  refine ⟨?_, ?_⟩
  · obtain ⟨h, -⟩ := h
    induction m with
    | nil => simp [Memory.insert]
    | cons d m ih =>
      obtain ⟨k, u⟩ := d
      rw [List.pairwise_cons] at h
      unfold Memory.insert
      split
      · next hlt =>
        refine List.pairwise_cons.2 ⟨?_, List.pairwise_cons.2 h⟩
        rintro c hc
        rcases List.mem_cons.1 hc with rfl | hc
        · exact hlt
        · exact hlt.trans (h.1 c hc)
      · next hlt =>
        refine List.pairwise_cons.2 ⟨?_, ih (fun c hc => hn c (by simp [hc])) h.2⟩
        intro c hc
        rcases Memory.mem_insert.1 hc with rfl | hc
        · have := hn (k, u) (by simp); simp at this ⊢; omega
        · exact h.1 c hc
  · intro c hc
    rcases Memory.mem_insert.1 hc with rfl | hc
    · exact ⟨ha, hv⟩
    · exact h.2 c hc

/-- Every write keeps the canonical form. -/
theorem Memory.wf_write {m : Memory} (h : m.wf = true) {a : Nat} (ha : a < 65536) (v : Byte) : (m.write a v).wf = true := by
  unfold Memory.write
  split
  · exact Memory.wf_erase h a
  · next hv => exact Memory.wf_insert (Memory.wf_erase h a) ha hv (m.erase_ne a)

/-- `MemWrite` keeps the canonical form. -/
theorem State.wf_memWrite {s : State} (h : s.mem.wf = true) (a : Word) (v : Byte) : (s.memWrite a v).mem.wf = true :=
  Memory.wf_write h a.isLt v

/-- `Push` keeps the canonical form. -/
theorem State.wf_push {s : State} (h : s.mem.wf = true) (v : Byte) : (s.push v).mem.wf = true := State.wf_memWrite h ..

theorem Memory.read_of_not_mem {m : Memory} {a : Nat} (h : ∀ c ∈ m, c.1 ≠ a) : m.read a = Config.unlisted := by
  induction m with
  | nil => rfl
  | cons c m ih =>
    obtain ⟨k, v⟩ := c
    have hk : k ≠ a := h (k, v) (by simp)
    simpa [Memory.read, hk] using ih fun c hc => h c (by simp [hc])

theorem Memory.read_of_mem {m : Memory} (h : m.Pairwise fun c d => c.1 < d.1) {a : Nat} {v : Byte} (hm : (a, v) ∈ m) :
    m.read a = v := by
  induction m with
  | nil => simp at hm
  | cons c m ih =>
    obtain ⟨k, u⟩ := c
    rw [List.pairwise_cons] at h
    rcases List.mem_cons.1 hm with heq | hm
    · simp only [Prod.mk.injEq] at heq; simp [Memory.read, heq.1, heq.2]
    · have hlt : k ≠ a := by have := h.1 (a, v) hm; simp at this; omega
      simpa [Memory.read, hlt] using ih h.2 hm

/-- The cells of a canonical memory are the addresses that do not read as unlisted, with what they read as. -/
theorem Memory.mem_iff {m : Memory} (h : m.wf = true) (a : Nat) (v : Byte) :
    (a, v) ∈ m ↔ m.read a = v ∧ v ≠ Config.unlisted := by
  rw [Memory.wf_iff] at h
  refine ⟨fun hm => ⟨Memory.read_of_mem h.1 hm, (h.2 _ hm).2⟩, fun ⟨hr, hv⟩ => ?_⟩
  by_contra hn
  refine hv (hr ▸ Memory.read_of_not_mem fun c hc hca => hn ?_)
  obtain ⟨k, u⟩ := c
  simp only at hca; subst hca
  rwa [← hr, Memory.read_of_mem h.1 hc]

/-- Equal reads make equal canonical memories. -/
theorem Memory.ext {m n : Memory} (hm : m.wf = true) (hn : n.wf = true) (h : ∀ a, m.read a = n.read a) : m = n := by
  have hp : m.Perm n := (List.perm_ext_iff_of_nodup
    (((Memory.wf_iff m).1 hm).1.imp fun hlt heq => by simp [heq] at hlt)
    (((Memory.wf_iff n).1 hn).1.imp fun hlt heq => by simp [heq] at hlt)).2
    fun ⟨a, v⟩ => by rw [Memory.mem_iff hm, Memory.mem_iff hn, h]
  exact hp.eq_of_pairwise (fun a b _ _ hab hba => absurd hba (by omega)) ((Memory.wf_iff m).1 hm).1 ((Memory.wf_iff n).1 hn).1

theorem Memory.mem_imageBelow {n : Nat} {f : Word → Byte} {k : Nat} {v : Byte} :
    (k, v) ∈ Memory.imageBelow n f ↔ k < n ∧ f (BitVec.ofNat 16 k) = v ∧ v ≠ Config.unlisted := by
  simp only [Memory.imageBelow, List.mem_filter, List.mem_map, List.mem_range, Prod.mk.injEq, bne_iff_ne]
  exact ⟨fun ⟨⟨_, hk, rfl, h⟩, hv⟩ => ⟨hk, h, hv⟩, fun ⟨hk, h, hv⟩ => ⟨⟨k, hk, rfl, h⟩, hv⟩⟩

theorem Memory.pairwise_imageBelow (n : Nat) (f : Word → Byte) :
    (Memory.imageBelow n f).Pairwise fun c d => c.1 < d.1 :=
  List.Pairwise.filter _ (List.pairwise_map.2 List.pairwise_lt_range)

theorem Memory.wf_imageBelow {n : Nat} (hn : n ≤ 65536) (f : Word → Byte) : (Memory.imageBelow n f).wf = true := by
  rw [Memory.wf_iff]
  refine ⟨Memory.pairwise_imageBelow n f, fun ⟨k, v⟩ hc => ?_⟩
  obtain ⟨hk, -, hv⟩ := Memory.mem_imageBelow.1 hc
  exact ⟨Nat.lt_of_lt_of_le hk hn, hv⟩

theorem Memory.read_imageBelow {n : Nat} (f : Word → Byte) {a : Word} (hn : a.toNat < n) :
    (Memory.imageBelow n f).read a.toNat = f a := by
  have ha : f (BitVec.ofNat 16 a.toNat) = f a := by simp
  by_cases h : f a = Config.unlisted
  · rw [h]
    refine Memory.read_of_not_mem fun ⟨k, v⟩ hc hk => ?_
    obtain ⟨-, hf, hv⟩ := Memory.mem_imageBelow.1 hc
    simp only at hk
    exact hv (by rw [← hf, hk, ha, h])
  · exact Memory.read_of_mem (Memory.pairwise_imageBelow n f) (Memory.mem_imageBelow.2 ⟨hn, ha, h⟩)

/-- The memory of an image is canonical. -/
theorem Memory.wf_ofFn (f : Word → Byte) : (Memory.ofFn f).wf = true := by
  unfold Memory.ofFn; exact Memory.wf_imageBelow (Nat.le_refl _) f

/-- A memory built from an image reads as the image (R31). -/
theorem Memory.read_ofFn (f : Word → Byte) (a : Word) : (Memory.ofFn f).read a.toNat = f a := by
  unfold Memory.ofFn; exact Memory.read_imageBelow f a.isLt

/-- The memory of the reset state is canonical. -/
theorem State.wf_reset : State.reset.mem.wf = true := rfl

/-- Construction puts the image in memory (R31, R240). -/
theorem State.construct_mem (f : Word → Byte) (entry : Word) : (State.construct f entry).mem = Memory.ofFn f := rfl

end Sys2Proof.Machine
end

