-- ==== Sys2Proof/Laws/Words.lean ====
section
/-! SUPPORT. The laws of the byte-order, extension and address helpers, and that decoding an encoding needs only them. -/

namespace Sys2Proof

/-- `hi:lo` is `256*hi + lo` (R3). -/
theorem mkWord_toNat (lo hi : Byte) : (mkWord lo hi).toNat = 256 * hi.toNat + lo.toNat := by
  have h : (mkWord lo hi).toNat = hi.toNat <<< 8 ||| lo.toNat := BitVec.toNat_append hi lo
  rw [h, ← Nat.shiftLeft_add_eq_or_of_lt lo.isLt]
  omega

theorem loByte_toNat (w : Word) : (loByte w).toNat = w.toNat % 256 := by simp [loByte]

theorem hiByte_toNat (w : Word) : (hiByte w).toNat = w.toNat / 256 := by
  have := w.isLt; simp [hiByte]; omega

@[simp] theorem mkWord_lo_hi (w : Word) : mkWord (loByte w) (hiByte w) = w := by
  apply BitVec.eq_of_toNat_eq; rw [mkWord_toNat, loByte_toNat, hiByte_toNat]; omega

@[simp] theorem loByte_mkWord (lo hi : Byte) : loByte (mkWord lo hi) = lo := by
  apply BitVec.eq_of_toNat_eq; have := lo.isLt; rw [loByte_toNat, mkWord_toNat]; omega

@[simp] theorem hiByte_mkWord (lo hi : Byte) : hiByte (mkWord lo hi) = hi := by
  apply BitVec.eq_of_toNat_eq; have := lo.isLt; rw [hiByte_toNat, mkWord_toNat]; omega

end Sys2Proof

namespace Sys2Proof.Machine

@[simp] theorem zext16_toNat (b : Byte) : (zext16 b).toNat = b.toNat := by
  have := b.isLt; simp [zext16]; omega

/-- The stack location is 0x0100 + S (R14). -/
theorem stackAddr_toNat (sp : Byte) : (stackAddr sp).toNat = 0x0100 + sp.toNat := by
  have := sp.isLt; simp [stackAddr]; omega

/-- Different stack pointers have different stack locations. -/
@[simp] theorem stackAddr_inj (u v : Byte) : stackAddr u = stackAddr v ↔ u = v := by
  refine ⟨fun h => ?_, fun h => h ▸ rfl⟩
  have := congrArg BitVec.toNat h
  rw [stackAddr_toNat, stackAddr_toNat] at this
  exact BitVec.eq_of_toNat_eq (by omega)

/-- No stack location is a byte of the break vector. -/
theorem stackAddr_ne_vector (sp : Byte) : breakVector ≠ stackAddr sp ∧ breakVector + 1 ≠ stackAddr sp := by
  have := sp.isLt
  constructor <;> intro h <;> have := congrArg BitVec.toNat h <;> simp [stackAddr_toNat, breakVector] at this <;> omega

end Sys2Proof.Machine
end

