-- ==== Sys2Proof/Laws/Operations.lean ====
section
/-! SUPPORT. What each shared operation does, field by field and flag by flag, said once, so that a proof about an instruction unfolds
its one-line meaning and nothing below it. -/

namespace Sys2Proof.Machine

variable (s : State)

@[simp] theorem State.adc_a (m : Byte) : (s.adc m).a = adcValue s.a m (s.flag .c) := rfl
@[simp] theorem State.adc_x (m : Byte) : (s.adc m).x = s.x := rfl
@[simp] theorem State.adc_y (m : Byte) : (s.adc m).y = s.y := rfl
@[simp] theorem State.adc_sp (m : Byte) : (s.adc m).sp = s.sp := rfl
@[simp] theorem State.adc_pc (m : Byte) : (s.adc m).pc = s.pc := rfl
@[simp] theorem State.adc_mem (m : Byte) : (s.adc m).mem = s.mem := rfl
@[simp] theorem State.adc_memRead (m : Byte) (addr : Word) : (s.adc m).memRead addr = s.memRead addr := rfl
@[simp] theorem State.adc_flag (m : Byte) (g : Flag) :
    (s.adc m).flag g = if g = .z then (adcValue s.a m (s.flag .c) == 0) else if g = .n then (adcValue s.a m (s.flag .c)).getLsbD 7
      else if g = .v then adcOverflow s.a m (adcValue s.a m (s.flag .c)) else if g = .c then adcCarry s.a m (s.flag .c) else s.flag g := by
  simp [State.adc]

@[simp] theorem State.sbc_a (m : Byte) : (s.sbc m).a = sbcValue s.a m (s.flag .c) := rfl
@[simp] theorem State.sbc_x (m : Byte) : (s.sbc m).x = s.x := rfl
@[simp] theorem State.sbc_y (m : Byte) : (s.sbc m).y = s.y := rfl
@[simp] theorem State.sbc_sp (m : Byte) : (s.sbc m).sp = s.sp := rfl
@[simp] theorem State.sbc_pc (m : Byte) : (s.sbc m).pc = s.pc := rfl
@[simp] theorem State.sbc_mem (m : Byte) : (s.sbc m).mem = s.mem := rfl
@[simp] theorem State.sbc_memRead (m : Byte) (addr : Word) : (s.sbc m).memRead addr = s.memRead addr := rfl
@[simp] theorem State.sbc_flag (m : Byte) (g : Flag) :
    (s.sbc m).flag g = if g = .z then (sbcValue s.a m (s.flag .c) == 0) else if g = .n then (sbcValue s.a m (s.flag .c)).getLsbD 7
      else if g = .v then sbcOverflow s.a m (sbcValue s.a m (s.flag .c)) else if g = .c then sbcCarry s.a m (s.flag .c) else s.flag g := by
  simp [State.sbc]

@[simp] theorem State.compare_a (r m : Byte) : (s.compare r m).a = s.a := rfl
@[simp] theorem State.compare_x (r m : Byte) : (s.compare r m).x = s.x := rfl
@[simp] theorem State.compare_y (r m : Byte) : (s.compare r m).y = s.y := rfl
@[simp] theorem State.compare_sp (r m : Byte) : (s.compare r m).sp = s.sp := rfl
@[simp] theorem State.compare_pc (r m : Byte) : (s.compare r m).pc = s.pc := rfl
@[simp] theorem State.compare_mem (r m : Byte) : (s.compare r m).mem = s.mem := rfl
@[simp] theorem State.compare_memRead (r m : Byte) (addr : Word) : (s.compare r m).memRead addr = s.memRead addr := rfl
@[simp] theorem State.compare_flag (r m : Byte) (g : Flag) :
    (s.compare r m).flag g = if g = .z then (r - m == 0) else if g = .n then (r - m).getLsbD 7
      else if g = .c then compareCarry r m else s.flag g := by
  simp [State.compare]

@[simp] theorem State.bitTest_a (m : Byte) : (s.bitTest m).a = s.a := rfl
@[simp] theorem State.bitTest_x (m : Byte) : (s.bitTest m).x = s.x := rfl
@[simp] theorem State.bitTest_y (m : Byte) : (s.bitTest m).y = s.y := rfl
@[simp] theorem State.bitTest_sp (m : Byte) : (s.bitTest m).sp = s.sp := rfl
@[simp] theorem State.bitTest_pc (m : Byte) : (s.bitTest m).pc = s.pc := rfl
@[simp] theorem State.bitTest_mem (m : Byte) : (s.bitTest m).mem = s.mem := rfl
@[simp] theorem State.bitTest_memRead (m : Byte) (addr : Word) : (s.bitTest m).memRead addr = s.memRead addr := rfl
@[simp] theorem State.bitTest_flag (m : Byte) (g : Flag) :
    (s.bitTest m).flag g = if g = .z then (s.a &&& m == 0) else if g = .v then m.getLsbD 6
      else if g = .n then m.getLsbD 7 else s.flag g := by
  simp [State.bitTest]

/-- A write to a location, field by field: the accumulator or one byte of memory (R98). -/
@[simp] theorem State.locationWrite_a (loc : Location) (v : Byte) : (s.locationWrite loc v).a = if loc = .acc then v else s.a := by
  cases loc <;> rfl
@[simp] theorem State.locationWrite_x (loc : Location) (v : Byte) : (s.locationWrite loc v).x = s.x := by cases loc <;> rfl
@[simp] theorem State.locationWrite_y (loc : Location) (v : Byte) : (s.locationWrite loc v).y = s.y := by cases loc <;> rfl
@[simp] theorem State.locationWrite_sp (loc : Location) (v : Byte) : (s.locationWrite loc v).sp = s.sp := by cases loc <;> rfl
@[simp] theorem State.locationWrite_p (loc : Location) (v : Byte) : (s.locationWrite loc v).p = s.p := by cases loc <;> rfl
@[simp] theorem State.locationWrite_pc (loc : Location) (v : Byte) : (s.locationWrite loc v).pc = s.pc := by cases loc <;> rfl
@[simp] theorem State.locationWrite_flag (loc : Location) (v : Byte) (g : Flag) : (s.locationWrite loc v).flag g = s.flag g := by
  cases loc <;> rfl
@[simp] theorem State.locationWrite_memRead (loc : Location) (v : Byte) (addr : Word) :
    (s.locationWrite loc v).memRead addr = if loc = .mem addr then v else s.memRead addr := by
  cases loc <;> simp [State.locationWrite, eq_comm]

/-- A read after a write of the same location. -/
@[simp] theorem State.locationRead_locationWrite (loc : Location) (v : Byte) : (s.locationWrite loc v).locationRead loc = v := by
  cases loc <;> simp [State.locationWrite, State.locationRead]

/-- Flags and `P` play no part in reading a location. -/
@[simp] theorem State.setNZ_locationRead (loc : Location) (v : Byte) : (s.setNZ v).locationRead loc = s.locationRead loc := by
  cases loc <;> rfl
@[simp] theorem State.setFlag_locationRead (loc : Location) (f : Flag) (v : Bool) :
    (s.setFlag f v).locationRead loc = s.locationRead loc := by
  cases loc <;> rfl

/-- A write to a location keeps the canonical form. -/
theorem State.wf_locationWrite {s : State} (h : s.mem.wf = true) (loc : Location) (v : Byte) :
    (s.locationWrite loc v).mem.wf = true := by
  cases loc
  · exact h
  · exact State.wf_memWrite h ..

@[simp] theorem State.shiftTo_a (loc : Location) (c : Bool) (r : Byte) : (s.shiftTo loc c r).a = if loc = .acc then r else s.a := by simp [State.shiftTo]
@[simp] theorem State.shiftTo_x (loc : Location) (c : Bool) (r : Byte) : (s.shiftTo loc c r).x = s.x := by simp [State.shiftTo]
@[simp] theorem State.shiftTo_y (loc : Location) (c : Bool) (r : Byte) : (s.shiftTo loc c r).y = s.y := by simp [State.shiftTo]
@[simp] theorem State.shiftTo_sp (loc : Location) (c : Bool) (r : Byte) : (s.shiftTo loc c r).sp = s.sp := by simp [State.shiftTo]
@[simp] theorem State.shiftTo_pc (loc : Location) (c : Bool) (r : Byte) : (s.shiftTo loc c r).pc = s.pc := by simp [State.shiftTo]
@[simp] theorem State.shiftTo_flag (loc : Location) (c : Bool) (r : Byte) (g : Flag) :
    (s.shiftTo loc c r).flag g = if g = .z then (r == 0) else if g = .n then r.getLsbD 7 else if g = .c then c else s.flag g := by
  simp [State.shiftTo]
@[simp] theorem State.shiftTo_memRead (loc : Location) (c : Bool) (r : Byte) (addr : Word) :
    (s.shiftTo loc c r).memRead addr = if loc = .mem addr then r else s.memRead addr := by
  simp [State.shiftTo]
@[simp] theorem State.shiftTo_locationRead (loc : Location) (c : Bool) (r : Byte) : (s.shiftTo loc c r).locationRead loc = r := by simp [State.shiftTo]

/-- A shift keeps the canonical form. -/
theorem State.wf_shiftTo {s : State} (h : s.mem.wf = true) (loc : Location) (c : Bool) (r : Byte) : (s.shiftTo loc c r).mem.wf = true :=
  State.wf_locationWrite (s := s.setFlag .c c) h loc r

/-- A branch changes `PC` only, and only when it is taken (R178). -/
theorem State.branch_eq (taken : Bool) (d : Byte) :
    s.branch taken d = s.setPc (if taken then s.pc + sext16 d else s.pc) := by
  cases taken <;> rfl

/-- What entering through the break vector leaves (R190, R223). -/
theorem State.takeBreak_eq :
    s.takeBreak = (((((s.setPc (s.pc + 1)).pushWord (s.pc + 1)).push (s.p ||| 0x10)).setPc
      (mkWord (s.memRead breakVector) (s.memRead (breakVector + 1)))).setFlag .i true) := by
  have h := stackAddr_ne_vector
  simp only [State.takeBreak, State.memRead16, State.setPc_pc, State.setPc_p, State.pushWord, State.push_memRead, State.setPc_memRead,
    (h _).1, (h _).2, if_false]

/-- What returning from a break leaves (R191, R225). -/
theorem State.returnFromBreak_eq :
    s.returnFromBreak = ((s.setP (s.memRead (stackAddr (s.sp + 1)) &&& 0xCF)).setSp (s.sp + 1 + 1 + 1)).setPc
      (mkWord (s.memRead (stackAddr (s.sp + 1 + 1))) (s.memRead (stackAddr (s.sp + 1 + 1 + 1)))) := rfl

/-- `MemRead` after pushing a 16-bit value: the high byte at the old stack location, the low byte at the next one down. -/
@[simp] theorem State.pushWord_memRead (w addr : Word) :
    (s.pushWord w).memRead addr =
      if addr = stackAddr (s.sp - 1) then loByte w else if addr = stackAddr s.sp then hiByte w else s.memRead addr := by
  simp [State.pushWord]

/-- Pushing a 16-bit value keeps the canonical form. -/
theorem State.wf_pushWord {s : State} (h : s.mem.wf = true) (w : Word) : (s.pushWord w).mem.wf = true :=
  State.wf_push (State.wf_push h _) _

end Sys2Proof.Machine
end

