-- ==== Sys2Proof/Laws/Frames.lean ====
section
/-! SUPPORT. The frame, the N and Z result and the canonical form of each shared operation, said once: a statement about an
instruction cites the lemma of the operation its meaning calls. -/

namespace Sys2Proof.Machine

variable (s : State)

theorem State.loadA_nz (v : Byte) : SetsNZ v (s.loadA v) := by simp [SetsNZ]
theorem State.loadX_nz (v : Byte) : SetsNZ v (s.loadX v) := by simp [SetsNZ]
theorem State.loadY_nz (v : Byte) : SetsNZ v (s.loadY v) := by simp [SetsNZ]
theorem State.adc_nz (m : Byte) : SetsNZ (s.adc m).a (s.adc m) := by simp [SetsNZ]
theorem State.sbc_nz (m : Byte) : SetsNZ (s.sbc m).a (s.sbc m) := by simp [SetsNZ]
theorem State.compare_nz (r m : Byte) : SetsNZ (r - m) (s.compare r m) := by simp [SetsNZ]
theorem State.shiftTo_nz (loc : Location) (c : Bool) (r : Byte) : SetsNZ r (s.shiftTo loc c r) := by simp [SetsNZ]

theorem State.setPc_frame (w : Word) : Frame [] [] [] s (s.setPc w) :=
  ⟨fun r _ => by cases r <;> rfl, fun _ _ => rfl, fun _ _ => rfl⟩

theorem State.branch_frame (taken : Bool) (d : Byte) : Frame [] [] [] s (s.branch taken d) := by
  rw [State.branch_eq]; exact s.setPc_frame _

theorem State.loadA_frame (v : Byte) : Frame [.a] [.n, .z] [] s (s.loadA v) :=
  ⟨fun r hr => by cases r <;> simp_all [State.reg], fun f hf => by cases f <;> simp_all, fun _ _ => rfl⟩

theorem State.loadX_frame (v : Byte) : Frame [.x] [.n, .z] [] s (s.loadX v) :=
  ⟨fun r hr => by cases r <;> simp_all [State.reg], fun f hf => by cases f <;> simp_all, fun _ _ => rfl⟩

theorem State.loadY_frame (v : Byte) : Frame [.y] [.n, .z] [] s (s.loadY v) :=
  ⟨fun r hr => by cases r <;> simp_all [State.reg], fun f hf => by cases f <;> simp_all, fun _ _ => rfl⟩

theorem State.setSp_frame (v : Byte) : Frame [.s] [] [] s (s.setSp v) :=
  ⟨fun r hr => by cases r <;> simp_all [State.reg], fun _ _ => rfl, fun _ _ => rfl⟩

theorem State.setFlag_frame (f : Flag) (v : Bool) : Frame [] [f] [] s (s.setFlag f v) :=
  ⟨fun r _ => by cases r <;> rfl, fun g hg => by simp_all, fun _ _ => rfl⟩

theorem State.adc_frame (m : Byte) : Frame [.a] [.n, .v, .z, .c] [] s (s.adc m) :=
  ⟨fun r hr => by cases r <;> simp_all [State.reg], fun f hf => by cases f <;> simp_all, fun _ _ => rfl⟩

theorem State.sbc_frame (m : Byte) : Frame [.a] [.n, .v, .z, .c] [] s (s.sbc m) :=
  ⟨fun r hr => by cases r <;> simp_all [State.reg], fun f hf => by cases f <;> simp_all, fun _ _ => rfl⟩

theorem State.compare_frame (r m : Byte) : Frame [] [.n, .z, .c] [] s (s.compare r m) :=
  ⟨fun q _ => by cases q <;> rfl, fun f hf => by cases f <;> simp_all, fun _ _ => rfl⟩

theorem State.bitTest_frame (m : Byte) : Frame [] [.n, .v, .z] [] s (s.bitTest m) :=
  ⟨fun q _ => by cases q <;> rfl, fun f hf => by cases f <;> simp_all, fun _ _ => rfl⟩

theorem State.memWrite_frame (a : Word) (v : Byte) : Frame [] [] [a] s (s.memWrite a v) :=
  ⟨fun q _ => by cases q <;> rfl, fun _ _ => rfl, fun b hb => by simp_all⟩

theorem State.push_frame (v : Byte) : Frame [.s] [] [stackAddr s.sp] s (s.push v) :=
  ⟨fun q hq => by cases q <;> simp_all [State.reg], fun _ _ => rfl, fun b hb => by simp_all⟩

theorem State.pushWord_frame (w : Word) : Frame [.s] [] [stackAddr s.sp, stackAddr (s.sp - 1)] s (s.pushWord w) :=
  ⟨fun q hq => by cases q <;> simp_all [State.reg], fun _ _ => rfl, fun b hb => by simp_all⟩

theorem State.shiftTo_frame (loc : Location) (c : Bool) (r : Byte) :
    Frame loc.regs [.n, .z, .c] loc.addrs s (s.shiftTo loc c r) :=
  ⟨fun q hq => by cases q <;> cases loc <;> simp_all [State.reg, Location.regs], fun f hf => by cases f <;> simp_all,
   fun a ha => by cases loc <;> simp_all [Location.addrs]; intro h; simp_all⟩

/-- What `INC` and `DEC` of a memory byte share. -/
theorem State.locationWrite_frame (a : Word) (v : Byte) :
    Frame [] [.n, .z] [a] s ((s.locationWrite (.mem a) v).setNZ v) :=
  ⟨fun q _ => by cases q <;> simp_all [State.reg], fun f hf => by cases f <;> simp_all,
   fun b hb => by simp_all; intro h; simp_all⟩

/-- Flags play no part in an effective address or an operand value. -/
theorem State.setFlag_ea (f : Flag) (v : Bool) (m : MemOperand) : (s.setFlag f v).ea m = s.ea m := by cases m <;> rfl

theorem State.setFlag_operandValue (f : Flag) (v : Bool) (src : Source) : (s.setFlag f v).operandValue src = s.operandValue src := by
  cases src <;> simp [State.operandValue, State.setFlag_ea]

theorem State.setFlag_location (f : Flag) (v : Bool) (m : MemOperand) : (s.setFlag f v).location m = s.location m := by
  simp [State.location, State.setFlag_ea]

/-- Construction reads as its image (R31). -/
theorem State.construct_memRead (image : Word → Byte) (entry a : Word) : (State.construct image entry).memRead a = image a := by
  rw [State.memRead, State.construct_mem, Memory.read_ofFn]

/-- The three stack locations of a break are different bytes. -/
theorem stackAddr_ne (v : Byte) :
    stackAddr v ≠ stackAddr (v - 1) ∧ stackAddr v ≠ stackAddr (v - 2) ∧ stackAddr (v - 1) ≠ stackAddr (v - 2) := by
  refine ⟨fun h => ?_, fun h => ?_, fun h => ?_⟩ <;> have := (stackAddr_inj _ _).1 h <;> bv_omega

theorem byte_sub_two (v : Byte) : v - 1 - 1 = v - 2 := by bv_omega
theorem byte_add_two (v : Byte) : v + 1 + 1 = v + 2 := by bv_omega
theorem byte_sub_three (v : Byte) : v - 2 - 1 = v - 3 := by bv_omega
theorem byte_add_three (v : Byte) : v + 2 + 1 = v + 3 := by bv_omega

/-- Memory after the break entry: the three pushed bytes (R190). -/
theorem State.takeBreak_memRead (addr : Word) :
    s.takeBreak.memRead addr =
      if addr = stackAddr (s.sp - 2) then s.p ||| 0x10 else if addr = stackAddr (s.sp - 1) then loByte (s.pc + 1)
      else if addr = stackAddr s.sp then hiByte (s.pc + 1) else s.memRead addr := by
  rw [State.takeBreak_eq, State.setFlag_memRead, State.setPc_memRead, State.push_memRead, State.pushWord_memRead,
    State.pushWord_sp, State.setPc_sp, State.setPc_memRead, byte_sub_two]

/-- The registers after the break entry (R190). -/
theorem State.takeBreak_fields :
    s.takeBreak.a = s.a ∧ s.takeBreak.x = s.x ∧ s.takeBreak.y = s.y ∧ s.takeBreak.sp = s.sp - 3 ∧
    s.takeBreak.pc = mkWord (s.memRead breakVector) (s.memRead (breakVector + 1)) ∧
    ∀ f, s.takeBreak.flag f = if f = .i then true else s.flag f := by
  rw [State.takeBreak_eq]
  refine ⟨?_, ?_, ?_, ?_, ?_, fun f => ?_⟩
  · rw [State.setFlag_a, State.setPc_a, State.push_a, State.pushWord_a, State.setPc_a]
  · rw [State.setFlag_x, State.setPc_x, State.push_x, State.pushWord_x, State.setPc_x]
  · rw [State.setFlag_y, State.setPc_y, State.push_y, State.pushWord_y, State.setPc_y]
  · rw [State.setFlag_sp, State.setPc_sp, State.push_sp, State.pushWord_sp, State.setPc_sp, byte_sub_two s.sp, byte_sub_three]
  · rw [State.setFlag_pc, State.setPc_pc]
  · rw [State.setFlag_flag, State.setPc_flag, State.push_flag, State.pushWord_flag, State.setPc_flag]

/-- Only the three stack bytes change when a break is taken. -/
theorem State.takeBreak_frame :
    Frame [.s] [.i] [stackAddr s.sp, stackAddr (s.sp - 1), stackAddr (s.sp - 2)] s s.takeBreak := by
  obtain ⟨ha, hx, hy, -, -, hf⟩ := s.takeBreak_fields
  refine ⟨fun r hr => ?_, fun f hff => ?_, fun a h => ?_⟩
  · cases r
    exacts [ha, hx, hy, absurd (by simp) hr]
  · rw [hf, if_neg (by simpa using hff)]
  · simp only [List.mem_cons, List.mem_nil_iff, or_false, not_or] at h
    rw [s.takeBreak_memRead, if_neg h.2.2, if_neg h.2.1, if_neg h.1]

/-- A flag of the status byte that `RTI` restores: U and B cleared (R191). -/
theorem getFlag_rti (q : Byte) (f : Flag) :
    getFlag (q &&& 0xCF) f = if f = .u then false else if f = .b then false else getFlag q f := by
  cases f <;> simp [getFlag, Flag.bit]

/-- The break entry keeps the canonical form. -/
theorem State.wf_takeBreak {s : State} (h : s.mem.wf = true) : s.takeBreak.mem.wf = true := by
  rw [State.takeBreak_eq, State.setFlag_mem, State.setPc_mem]
  exact State.wf_push (State.wf_pushWord (s := s.setPc (s.pc + 1)) h _) _

end Sys2Proof.Machine
end

