-- ==== Sys2Proof/Laws/Fetching.lean ====
section
/-! SUPPORT. The opcode map row by row as facts about `pattern`, and what the fetch of a step reads. -/

namespace Sys2Proof

/-- What an encoding looks like under each kind of row: its bytes, its length and how many of them a step fetches. -/
def Pattern.Encodes (op : Byte) : Pattern → Prop
  | .op i => ∀ pad, encodeWith pad i = [op] ∧ i.length = 1 ∧ i.fetched = 1
  | .opPad i => ∀ pad, encodeWith pad i = [op, pad] ∧ i.length = 2 ∧ i.fetched = 1
  | .opB f => ∀ pad b, encodeWith pad (f b) = [op, b] ∧ (f b).length = 2 ∧ (f b).fetched = 2
  | .opW f => ∀ pad w, encodeWith pad (f w) = [op, loByte w, hiByte w] ∧ (f w).length = 3 ∧ (f w).fetched = 3
  | .unmapped => True

/-- Every row of the opcode map agrees with the encoder (R65, R66). -/
theorem pattern_encodes (op : Byte) : (pattern op).Encodes op := by
  unfold pattern
  split
  all_goals first
    | trivial
    | (rename_i h
       have hop : op = BitVec.ofNat 8 op.toNat := by simp
       rw [h] at hop; subst hop
       first | exact fun _ => ⟨rfl, rfl, rfl⟩ | exact fun _ _ => ⟨rfl, rfl, rfl⟩)

/-- Decoding three bytes: they are never too few. -/
theorem decode_three (op b c : Byte) :
    decode [op, b, c] = match pattern op with
      | .op i => .instr i [b, c]
      | .opPad i => .instr i [c]
      | .opB f => .instr (f b) [c]
      | .opW f => .instr (f (mkWord b c)) []
      | .unmapped => .unmapped op := by
  rw [decode]; cases pattern op <;> simp

/-- The rows that are not in the opcode map are the 105 bytes of R67. -/
theorem pattern_unmapped_iff (op : Byte) : pattern op = .unmapped ↔ op ∈ Machine.unmappedOpcodes := by
  have h : ∀ op : Byte, (match pattern op with | .unmapped => true | _ => false) = decide (op ∈ Machine.unmappedOpcodes) := by
    decide +kernel
  specialize h op
  constructor
  · intro hp; rw [hp] at h; simpa using h.symm
  · intro hm; cases hp : pattern op <;> simp_all

end Sys2Proof

namespace Sys2Proof.Machine

@[simp] theorem State.setPc_setPc (s : State) (u v : Word) : (s.setPc u).setPc v = s.setPc v := rfl

/-- The three bytes at an address. -/
theorem State.bytesAt_three (s : State) (a : Word) : s.bytesAt a 3 = [s.memRead a, s.memRead (a + 1), s.memRead (a + 2)] := by
  have : a + 1 + 1 = a + 2 := by bv_omega
  simp only [State.bytesAt, this]

/-- What the fetch of a step finds, row by row. -/
theorem State.fetch_eq (s : State) :
    s.fetch = match pattern (s.memRead s.pc) with
      | .op i => .instr i (s.setPc (s.pc + 1))
      | .opPad i => .instr i (s.setPc (s.pc + 1))
      | .opB f => .instr (f (s.memRead (s.pc + 1))) (s.setPc (s.pc + 2))
      | .opW f => .instr (f (mkWord (s.memRead (s.pc + 1)) (s.memRead (s.pc + 2)))) (s.setPc (s.pc + 3))
      | .unmapped => .unmapped (s.memRead s.pc) (s.setPc (s.pc + 1)) := by
  have h1 : s.pc + 1 + 1 = s.pc + 2 := by bv_omega
  have h2 : s.pc + 2 + 1 = s.pc + 3 := by bv_omega
  unfold State.fetch State.fetch8
  simp only [State.setPc_pc, State.setPc_memRead, State.setPc_setPc, h1, h2] <;> cases pattern (s.memRead s.pc) <;> rfl

/-- What a step does, row by row. -/
theorem step_eq (s : State) :
    step s = match pattern (s.memRead s.pc) with
      | .op i => exec i (s.setPc (s.pc + 1))
      | .opPad i => exec i (s.setPc (s.pc + 1))
      | .opB f => exec (f (s.memRead (s.pc + 1))) (s.setPc (s.pc + 2))
      | .opW f => exec (f (mkWord (s.memRead (s.pc + 1)) (s.memRead (s.pc + 2)))) (s.setPc (s.pc + 3))
      | .unmapped => raiseUnknownOpcode (s.memRead s.pc) (s.setPc (s.pc + 1)) := by
  rw [step, State.fetch_eq]; cases pattern (s.memRead s.pc) <;> rfl

/-- Bytes stored from an address on: the first of them, the others being stored elsewhere when they do not wrap onto it. -/
theorem State.storeBytes_three (s : State) (a : Word) (b c d : Byte) :
    (s.storeBytes a [b, c, d]).memRead a = b ∧ (s.storeBytes a [b, c, d]).memRead (a + 1) = c ∧
    (s.storeBytes a [b, c, d]).memRead (a + 2) = d := by
  have h1 : a + 1 + 1 = a + 2 := by bv_omega
  have e1 : a ≠ a + 1 := by bv_omega
  have e2 : a ≠ a + 2 := by bv_omega
  have e3 : a + 1 ≠ a + 2 := by bv_omega
  simp only [State.storeBytes, State.memWrite_memRead, h1, e1, e2, e3, if_true, if_false, and_self]

/-- Storing bytes keeps the canonical form. -/
theorem State.wf_storeBytes {s : State} (h : s.mem.wf = true) (a : Word) (bs : List Byte) : (s.storeBytes a bs).mem.wf = true := by
  induction bs generalizing s a with
  | nil => exact h
  | cons b bs ih => exact ih (State.wf_memWrite h a b) (a + 1)

/-- Storing bytes leaves `PC` where it is. -/
theorem State.storeBytes_pc (s : State) (a : Word) (bs : List Byte) : (s.storeBytes a bs).pc = s.pc := by
  induction bs generalizing s a with
  | nil => rfl
  | cons b bs ih => exact ih (s.memWrite a b) (a + 1)

end Sys2Proof.Machine
end

