-- ==== Sys2Proof/Laws/PerInstr.lean ====
section
/-! SUPPORT. Per-instruction lemmas. Family `EncodingLength`: whatever the padding byte, the encoded bytes are as many as the length
of the instruction's mode, and the instruction is well formed. -/

namespace Sys2Proof.Laws.EncodingLength

/-- The encoded length is the mode's length (R60, R61) and the instruction's pairing and operand are legal (R66, R68). -/
def Statement (i : Instr) : Prop :=
  (∀ pad, (encodeWith pad i).length = i.length) ∧ i.wellFormed = true

/-- The operand check of a one-byte operand. -/
theorem byteFits (b : Byte) : decide (b.toNat < 256 ^ 1) = true := by
  have := b.isLt; simp; omega

/-- The operand check of a two-byte operand. -/
theorem wordFits (w : Word) : decide (w.toNat < 256 ^ 2) = true := by
  have := w.isLt; simp; omega

theorem adcImm (b : Byte) : Statement (.adcImm b) := ⟨fun _ => rfl, byteFits b⟩
theorem adcZp (b : Byte) : Statement (.adcZp b) := ⟨fun _ => rfl, byteFits b⟩
theorem adcZpx (b : Byte) : Statement (.adcZpx b) := ⟨fun _ => rfl, byteFits b⟩
theorem adcAbs (w : Word) : Statement (.adcAbs w) := ⟨fun _ => rfl, wordFits w⟩
theorem adcAbsx (w : Word) : Statement (.adcAbsx w) := ⟨fun _ => rfl, wordFits w⟩
theorem adcAbsy (w : Word) : Statement (.adcAbsy w) := ⟨fun _ => rfl, wordFits w⟩
theorem adcIndx (b : Byte) : Statement (.adcIndx b) := ⟨fun _ => rfl, byteFits b⟩
theorem adcIndy (b : Byte) : Statement (.adcIndy b) := ⟨fun _ => rfl, byteFits b⟩
theorem sbcImm (b : Byte) : Statement (.sbcImm b) := ⟨fun _ => rfl, byteFits b⟩
theorem sbcZp (b : Byte) : Statement (.sbcZp b) := ⟨fun _ => rfl, byteFits b⟩
theorem sbcZpx (b : Byte) : Statement (.sbcZpx b) := ⟨fun _ => rfl, byteFits b⟩
theorem sbcAbs (w : Word) : Statement (.sbcAbs w) := ⟨fun _ => rfl, wordFits w⟩
theorem sbcAbsx (w : Word) : Statement (.sbcAbsx w) := ⟨fun _ => rfl, wordFits w⟩
theorem sbcAbsy (w : Word) : Statement (.sbcAbsy w) := ⟨fun _ => rfl, wordFits w⟩
theorem sbcIndx (b : Byte) : Statement (.sbcIndx b) := ⟨fun _ => rfl, byteFits b⟩
theorem sbcIndy (b : Byte) : Statement (.sbcIndy b) := ⟨fun _ => rfl, byteFits b⟩
theorem andImm (b : Byte) : Statement (.andImm b) := ⟨fun _ => rfl, byteFits b⟩
theorem andZp (b : Byte) : Statement (.andZp b) := ⟨fun _ => rfl, byteFits b⟩
theorem andZpx (b : Byte) : Statement (.andZpx b) := ⟨fun _ => rfl, byteFits b⟩
theorem andAbs (w : Word) : Statement (.andAbs w) := ⟨fun _ => rfl, wordFits w⟩
theorem andAbsx (w : Word) : Statement (.andAbsx w) := ⟨fun _ => rfl, wordFits w⟩
theorem andAbsy (w : Word) : Statement (.andAbsy w) := ⟨fun _ => rfl, wordFits w⟩
theorem andIndx (b : Byte) : Statement (.andIndx b) := ⟨fun _ => rfl, byteFits b⟩
theorem andIndy (b : Byte) : Statement (.andIndy b) := ⟨fun _ => rfl, byteFits b⟩
theorem oraImm (b : Byte) : Statement (.oraImm b) := ⟨fun _ => rfl, byteFits b⟩
theorem oraZp (b : Byte) : Statement (.oraZp b) := ⟨fun _ => rfl, byteFits b⟩
theorem oraZpx (b : Byte) : Statement (.oraZpx b) := ⟨fun _ => rfl, byteFits b⟩
theorem oraAbs (w : Word) : Statement (.oraAbs w) := ⟨fun _ => rfl, wordFits w⟩
theorem oraAbsx (w : Word) : Statement (.oraAbsx w) := ⟨fun _ => rfl, wordFits w⟩
theorem oraAbsy (w : Word) : Statement (.oraAbsy w) := ⟨fun _ => rfl, wordFits w⟩
theorem oraIndx (b : Byte) : Statement (.oraIndx b) := ⟨fun _ => rfl, byteFits b⟩
theorem oraIndy (b : Byte) : Statement (.oraIndy b) := ⟨fun _ => rfl, byteFits b⟩
theorem eorImm (b : Byte) : Statement (.eorImm b) := ⟨fun _ => rfl, byteFits b⟩
theorem eorZp (b : Byte) : Statement (.eorZp b) := ⟨fun _ => rfl, byteFits b⟩
theorem eorZpx (b : Byte) : Statement (.eorZpx b) := ⟨fun _ => rfl, byteFits b⟩
theorem eorAbs (w : Word) : Statement (.eorAbs w) := ⟨fun _ => rfl, wordFits w⟩
theorem eorAbsx (w : Word) : Statement (.eorAbsx w) := ⟨fun _ => rfl, wordFits w⟩
theorem eorAbsy (w : Word) : Statement (.eorAbsy w) := ⟨fun _ => rfl, wordFits w⟩
theorem eorIndx (b : Byte) : Statement (.eorIndx b) := ⟨fun _ => rfl, byteFits b⟩
theorem eorIndy (b : Byte) : Statement (.eorIndy b) := ⟨fun _ => rfl, byteFits b⟩
theorem aslAcc : Statement .aslAcc := ⟨fun _ => rfl, rfl⟩
theorem aslZp (b : Byte) : Statement (.aslZp b) := ⟨fun _ => rfl, byteFits b⟩
theorem aslZpx (b : Byte) : Statement (.aslZpx b) := ⟨fun _ => rfl, byteFits b⟩
theorem aslAbs (w : Word) : Statement (.aslAbs w) := ⟨fun _ => rfl, wordFits w⟩
theorem aslAbsx (w : Word) : Statement (.aslAbsx w) := ⟨fun _ => rfl, wordFits w⟩
theorem lsrAcc : Statement .lsrAcc := ⟨fun _ => rfl, rfl⟩
theorem lsrZp (b : Byte) : Statement (.lsrZp b) := ⟨fun _ => rfl, byteFits b⟩
theorem lsrZpx (b : Byte) : Statement (.lsrZpx b) := ⟨fun _ => rfl, byteFits b⟩
theorem lsrAbs (w : Word) : Statement (.lsrAbs w) := ⟨fun _ => rfl, wordFits w⟩
theorem lsrAbsx (w : Word) : Statement (.lsrAbsx w) := ⟨fun _ => rfl, wordFits w⟩
theorem rolAcc : Statement .rolAcc := ⟨fun _ => rfl, rfl⟩
theorem rolZp (b : Byte) : Statement (.rolZp b) := ⟨fun _ => rfl, byteFits b⟩
theorem rolZpx (b : Byte) : Statement (.rolZpx b) := ⟨fun _ => rfl, byteFits b⟩
theorem rolAbs (w : Word) : Statement (.rolAbs w) := ⟨fun _ => rfl, wordFits w⟩
theorem rolAbsx (w : Word) : Statement (.rolAbsx w) := ⟨fun _ => rfl, wordFits w⟩
theorem rorAcc : Statement .rorAcc := ⟨fun _ => rfl, rfl⟩
theorem rorZp (b : Byte) : Statement (.rorZp b) := ⟨fun _ => rfl, byteFits b⟩
theorem rorZpx (b : Byte) : Statement (.rorZpx b) := ⟨fun _ => rfl, byteFits b⟩
theorem rorAbs (w : Word) : Statement (.rorAbs w) := ⟨fun _ => rfl, wordFits w⟩
theorem rorAbsx (w : Word) : Statement (.rorAbsx w) := ⟨fun _ => rfl, wordFits w⟩
theorem cmpImm (b : Byte) : Statement (.cmpImm b) := ⟨fun _ => rfl, byteFits b⟩
theorem cmpZp (b : Byte) : Statement (.cmpZp b) := ⟨fun _ => rfl, byteFits b⟩
theorem cmpZpx (b : Byte) : Statement (.cmpZpx b) := ⟨fun _ => rfl, byteFits b⟩
theorem cmpAbs (w : Word) : Statement (.cmpAbs w) := ⟨fun _ => rfl, wordFits w⟩
theorem cmpAbsx (w : Word) : Statement (.cmpAbsx w) := ⟨fun _ => rfl, wordFits w⟩
theorem cmpAbsy (w : Word) : Statement (.cmpAbsy w) := ⟨fun _ => rfl, wordFits w⟩
theorem cmpIndx (b : Byte) : Statement (.cmpIndx b) := ⟨fun _ => rfl, byteFits b⟩
theorem cmpIndy (b : Byte) : Statement (.cmpIndy b) := ⟨fun _ => rfl, byteFits b⟩
theorem cpxImm (b : Byte) : Statement (.cpxImm b) := ⟨fun _ => rfl, byteFits b⟩
theorem cpxZp (b : Byte) : Statement (.cpxZp b) := ⟨fun _ => rfl, byteFits b⟩
theorem cpxAbs (w : Word) : Statement (.cpxAbs w) := ⟨fun _ => rfl, wordFits w⟩
theorem cpyImm (b : Byte) : Statement (.cpyImm b) := ⟨fun _ => rfl, byteFits b⟩
theorem cpyZp (b : Byte) : Statement (.cpyZp b) := ⟨fun _ => rfl, byteFits b⟩
theorem cpyAbs (w : Word) : Statement (.cpyAbs w) := ⟨fun _ => rfl, wordFits w⟩
theorem bitZp (b : Byte) : Statement (.bitZp b) := ⟨fun _ => rfl, byteFits b⟩
theorem bitAbs (w : Word) : Statement (.bitAbs w) := ⟨fun _ => rfl, wordFits w⟩
theorem incZp (b : Byte) : Statement (.incZp b) := ⟨fun _ => rfl, byteFits b⟩
theorem incZpx (b : Byte) : Statement (.incZpx b) := ⟨fun _ => rfl, byteFits b⟩
theorem incAbs (w : Word) : Statement (.incAbs w) := ⟨fun _ => rfl, wordFits w⟩
theorem incAbsx (w : Word) : Statement (.incAbsx w) := ⟨fun _ => rfl, wordFits w⟩
theorem decZp (b : Byte) : Statement (.decZp b) := ⟨fun _ => rfl, byteFits b⟩
theorem decZpx (b : Byte) : Statement (.decZpx b) := ⟨fun _ => rfl, byteFits b⟩
theorem decAbs (w : Word) : Statement (.decAbs w) := ⟨fun _ => rfl, wordFits w⟩
theorem decAbsx (w : Word) : Statement (.decAbsx w) := ⟨fun _ => rfl, wordFits w⟩
theorem inx : Statement .inx := ⟨fun _ => rfl, rfl⟩
theorem iny : Statement .iny := ⟨fun _ => rfl, rfl⟩
theorem dex : Statement .dex := ⟨fun _ => rfl, rfl⟩
theorem dey : Statement .dey := ⟨fun _ => rfl, rfl⟩
theorem ldaImm (b : Byte) : Statement (.ldaImm b) := ⟨fun _ => rfl, byteFits b⟩
theorem ldaZp (b : Byte) : Statement (.ldaZp b) := ⟨fun _ => rfl, byteFits b⟩
theorem ldaZpx (b : Byte) : Statement (.ldaZpx b) := ⟨fun _ => rfl, byteFits b⟩
theorem ldaAbs (w : Word) : Statement (.ldaAbs w) := ⟨fun _ => rfl, wordFits w⟩
theorem ldaAbsx (w : Word) : Statement (.ldaAbsx w) := ⟨fun _ => rfl, wordFits w⟩
theorem ldaAbsy (w : Word) : Statement (.ldaAbsy w) := ⟨fun _ => rfl, wordFits w⟩
theorem ldaIndx (b : Byte) : Statement (.ldaIndx b) := ⟨fun _ => rfl, byteFits b⟩
theorem ldaIndy (b : Byte) : Statement (.ldaIndy b) := ⟨fun _ => rfl, byteFits b⟩
theorem ldxImm (b : Byte) : Statement (.ldxImm b) := ⟨fun _ => rfl, byteFits b⟩
theorem ldxZp (b : Byte) : Statement (.ldxZp b) := ⟨fun _ => rfl, byteFits b⟩
theorem ldxZpy (b : Byte) : Statement (.ldxZpy b) := ⟨fun _ => rfl, byteFits b⟩
theorem ldxAbs (w : Word) : Statement (.ldxAbs w) := ⟨fun _ => rfl, wordFits w⟩
theorem ldxAbsy (w : Word) : Statement (.ldxAbsy w) := ⟨fun _ => rfl, wordFits w⟩
theorem ldyImm (b : Byte) : Statement (.ldyImm b) := ⟨fun _ => rfl, byteFits b⟩
theorem ldyZp (b : Byte) : Statement (.ldyZp b) := ⟨fun _ => rfl, byteFits b⟩
theorem ldyZpx (b : Byte) : Statement (.ldyZpx b) := ⟨fun _ => rfl, byteFits b⟩
theorem ldyAbs (w : Word) : Statement (.ldyAbs w) := ⟨fun _ => rfl, wordFits w⟩
theorem ldyAbsx (w : Word) : Statement (.ldyAbsx w) := ⟨fun _ => rfl, wordFits w⟩
theorem staZp (b : Byte) : Statement (.staZp b) := ⟨fun _ => rfl, byteFits b⟩
theorem staZpx (b : Byte) : Statement (.staZpx b) := ⟨fun _ => rfl, byteFits b⟩
theorem staAbs (w : Word) : Statement (.staAbs w) := ⟨fun _ => rfl, wordFits w⟩
theorem staAbsx (w : Word) : Statement (.staAbsx w) := ⟨fun _ => rfl, wordFits w⟩
theorem staAbsy (w : Word) : Statement (.staAbsy w) := ⟨fun _ => rfl, wordFits w⟩
theorem staIndx (b : Byte) : Statement (.staIndx b) := ⟨fun _ => rfl, byteFits b⟩
theorem staIndy (b : Byte) : Statement (.staIndy b) := ⟨fun _ => rfl, byteFits b⟩
theorem stxZp (b : Byte) : Statement (.stxZp b) := ⟨fun _ => rfl, byteFits b⟩
theorem stxZpy (b : Byte) : Statement (.stxZpy b) := ⟨fun _ => rfl, byteFits b⟩
theorem stxAbs (w : Word) : Statement (.stxAbs w) := ⟨fun _ => rfl, wordFits w⟩
theorem styZp (b : Byte) : Statement (.styZp b) := ⟨fun _ => rfl, byteFits b⟩
theorem styZpx (b : Byte) : Statement (.styZpx b) := ⟨fun _ => rfl, byteFits b⟩
theorem styAbs (w : Word) : Statement (.styAbs w) := ⟨fun _ => rfl, wordFits w⟩
theorem tax : Statement .tax := ⟨fun _ => rfl, rfl⟩
theorem txa : Statement .txa := ⟨fun _ => rfl, rfl⟩
theorem tay : Statement .tay := ⟨fun _ => rfl, rfl⟩
theorem tya : Statement .tya := ⟨fun _ => rfl, rfl⟩
theorem tsx : Statement .tsx := ⟨fun _ => rfl, rfl⟩
theorem txs : Statement .txs := ⟨fun _ => rfl, rfl⟩
theorem bcc (d : Byte) : Statement (.bcc d) := ⟨fun _ => rfl, byteFits d⟩
theorem bcs (d : Byte) : Statement (.bcs d) := ⟨fun _ => rfl, byteFits d⟩
theorem bne (d : Byte) : Statement (.bne d) := ⟨fun _ => rfl, byteFits d⟩
theorem beq (d : Byte) : Statement (.beq d) := ⟨fun _ => rfl, byteFits d⟩
theorem bpl (d : Byte) : Statement (.bpl d) := ⟨fun _ => rfl, byteFits d⟩
theorem bmi (d : Byte) : Statement (.bmi d) := ⟨fun _ => rfl, byteFits d⟩
theorem bvc (d : Byte) : Statement (.bvc d) := ⟨fun _ => rfl, byteFits d⟩
theorem bvs (d : Byte) : Statement (.bvs d) := ⟨fun _ => rfl, byteFits d⟩
theorem jmpAbs (w : Word) : Statement (.jmpAbs w) := ⟨fun _ => rfl, wordFits w⟩
theorem jmpInd (w : Word) : Statement (.jmpInd w) := ⟨fun _ => rfl, wordFits w⟩
theorem jsr (w : Word) : Statement (.jsr w) := ⟨fun _ => rfl, wordFits w⟩
theorem rts : Statement .rts := ⟨fun _ => rfl, rfl⟩
theorem brk : Statement .brk := ⟨fun _ => rfl, rfl⟩
theorem rti : Statement .rti := ⟨fun _ => rfl, rfl⟩
theorem pha : Statement .pha := ⟨fun _ => rfl, rfl⟩
theorem pla : Statement .pla := ⟨fun _ => rfl, rfl⟩
theorem php : Statement .php := ⟨fun _ => rfl, rfl⟩
theorem plp : Statement .plp := ⟨fun _ => rfl, rfl⟩
theorem clc : Statement .clc := ⟨fun _ => rfl, rfl⟩
theorem sec : Statement .sec := ⟨fun _ => rfl, rfl⟩
theorem cld : Statement .cld := ⟨fun _ => rfl, rfl⟩
theorem sed : Statement .sed := ⟨fun _ => rfl, rfl⟩
theorem cli : Statement .cli := ⟨fun _ => rfl, rfl⟩
theorem sei : Statement .sei := ⟨fun _ => rfl, rfl⟩
theorem clv : Statement .clv := ⟨fun _ => rfl, rfl⟩
theorem nop : Statement .nop := ⟨fun _ => rfl, rfl⟩

end Sys2Proof.Laws.EncodingLength
end

