-- ==== Sys2Proof/Laws/Runs.lean ====
section
/-! SUPPORT. A run one step at a time, in the machine's own types. -/

namespace Sys2Proof.Machine

theorem machine_run_next (M : Host.Core) {k : Nat} {s t : M.State} (h : M.step s = .next t) : M.run (k + 1) s = M.run k t := by
  rw [Host.Core.run, h]

theorem machine_run_fault (M : Host.Core) {k : Nat} {s : M.State} {r : M.Fault} (h : M.step s = .fault r) :
    M.run (k + 1) s = .fault r := by
  rw [Host.Core.run, h]

/-- A run whose first step goes on. -/
theorem run_next {k : Nat} {s t : State} (h : step s = .next t) :
    Host.Core.run Sys2Proof.core (k + 1) s = Host.Core.run Sys2Proof.core k t := machine_run_next Sys2Proof.core h

/-- A run whose first step halts. -/
theorem run_fault {k : Nat} {s : State} {r : Fault} (h : step s = .fault r) :
    Host.Core.run Sys2Proof.core (k + 1) s = .fault r := machine_run_fault Sys2Proof.core h

/-- No step halts after none. -/
theorem not_runEnds_zero (s : State) (op : Byte) (t : State) : ¬ RunEnds 0 s op t := by
  intro h; exact Host.Outcome.noConfusion rfl rfl rfl (heq_of_eq h)

end Sys2Proof.Machine
end

