-- ==== Sys2Proof/Tests/Slice0.lean ====
section
/-! SUPPORT. Our own tests: the checks of WellFormed, decoding of words written from the opcode table, one-step vectors of
spec/95_test_vectors.md, and a witness for the hypotheses of every statement that has some. No expected result comes from the model. -/

namespace Sys2Proof.Tests

open Sys2Proof.Machine

/-! ## WellFormed: an ill-formed term for each check -/

/-- `INC` takes no immediate (R66, D2). -/
theorem test_illformed_pairing : (AsmLine.mk .inc .imm 5).pairingOk = false ∧ (AsmLine.mk .inc .imm 5).wellFormed = false := by decide

/-- Only `BRK` has a padding byte (R190), and a store takes no immediate. -/
theorem test_illformed_pairing_more : (AsmLine.mk .lda .pad 0).wellFormed = false ∧ (AsmLine.mk .sta .imm 0).wellFormed = false := by
  decide

/-- 256 does not fit one operand byte, nor 65536 two (R61), nor anything but 0 none. -/
theorem test_illformed_operand :
    (AsmLine.mk .lda .imm 256).operandOk = false ∧ (AsmLine.mk .lda .imm 256).wellFormed = false ∧
    (AsmLine.mk .jmp .imm16 65536).wellFormed = false ∧ (AsmLine.mk .nop .imp 1).wellFormed = false := by decide

/-- The largest operands fit. -/
theorem test_wellformed : (AsmLine.mk .lda .imm 255).wellFormed = true ∧ (AsmLine.mk .jmp .imm16 65535).wellFormed = true := by decide

/-! ## Decoding -/

/-- Each byte sequence decodes, whole, to the instruction beside it. -/
abbrev ShowsDecoding (l : List (List Byte × Instr)) : Prop := l.all (fun c => decide (decode c.1 = .instr c.2 [])) = true

/-- Source: the encoding column of spec/opcode_table.json and R61; operand bytes 9C, or 34 12 for 0x1234 (R63). -/
theorem test_decode_arithmetic :
    ShowsDecoding
      [([0b01101001, 0x9C], .adcImm 0x9C),
       ([0b01100101, 0x9C], .adcZp 0x9C),
       ([0b01110101, 0x9C], .adcZpx 0x9C),
       ([0b01101101, 0x34, 0x12], .adcAbs 0x1234),
       ([0b01111101, 0x34, 0x12], .adcAbsx 0x1234),
       ([0b01111001, 0x34, 0x12], .adcAbsy 0x1234),
       ([0b01100001, 0x9C], .adcIndx 0x9C),
       ([0b01110001, 0x9C], .adcIndy 0x9C),
       ([0b11101001, 0x9C], .sbcImm 0x9C),
       ([0b11100101, 0x9C], .sbcZp 0x9C),
       ([0b11110101, 0x9C], .sbcZpx 0x9C),
       ([0b11101101, 0x34, 0x12], .sbcAbs 0x1234),
       ([0b11111101, 0x34, 0x12], .sbcAbsx 0x1234),
       ([0b11111001, 0x34, 0x12], .sbcAbsy 0x1234),
       ([0b11100001, 0x9C], .sbcIndx 0x9C),
       ([0b11110001, 0x9C], .sbcIndy 0x9C)] := by decide

/-- Source: the encoding column of spec/opcode_table.json and R61; operand bytes 9C, or 34 12 for 0x1234 (R63). -/
theorem test_decode_logic :
    ShowsDecoding
      [([0b00101001, 0x9C], .andImm 0x9C),
       ([0b00100101, 0x9C], .andZp 0x9C),
       ([0b00110101, 0x9C], .andZpx 0x9C),
       ([0b00101101, 0x34, 0x12], .andAbs 0x1234),
       ([0b00111101, 0x34, 0x12], .andAbsx 0x1234),
       ([0b00111001, 0x34, 0x12], .andAbsy 0x1234),
       ([0b00100001, 0x9C], .andIndx 0x9C),
       ([0b00110001, 0x9C], .andIndy 0x9C),
       ([0b00001001, 0x9C], .oraImm 0x9C),
       ([0b00000101, 0x9C], .oraZp 0x9C),
       ([0b00010101, 0x9C], .oraZpx 0x9C),
       ([0b00001101, 0x34, 0x12], .oraAbs 0x1234),
       ([0b00011101, 0x34, 0x12], .oraAbsx 0x1234),
       ([0b00011001, 0x34, 0x12], .oraAbsy 0x1234),
       ([0b00000001, 0x9C], .oraIndx 0x9C),
       ([0b00010001, 0x9C], .oraIndy 0x9C),
       ([0b01001001, 0x9C], .eorImm 0x9C),
       ([0b01000101, 0x9C], .eorZp 0x9C),
       ([0b01010101, 0x9C], .eorZpx 0x9C),
       ([0b01001101, 0x34, 0x12], .eorAbs 0x1234),
       ([0b01011101, 0x34, 0x12], .eorAbsx 0x1234),
       ([0b01011001, 0x34, 0x12], .eorAbsy 0x1234),
       ([0b01000001, 0x9C], .eorIndx 0x9C),
       ([0b01010001, 0x9C], .eorIndy 0x9C)] := by decide

/-- Source: the encoding column of spec/opcode_table.json and R61; operand bytes 9C, or 34 12 for 0x1234 (R63). -/
theorem test_decode_shift :
    ShowsDecoding
      [([0b00001010], .aslAcc),
       ([0b00000110, 0x9C], .aslZp 0x9C),
       ([0b00010110, 0x9C], .aslZpx 0x9C),
       ([0b00001110, 0x34, 0x12], .aslAbs 0x1234),
       ([0b00011110, 0x34, 0x12], .aslAbsx 0x1234),
       ([0b01001010], .lsrAcc),
       ([0b01000110, 0x9C], .lsrZp 0x9C),
       ([0b01010110, 0x9C], .lsrZpx 0x9C),
       ([0b01001110, 0x34, 0x12], .lsrAbs 0x1234),
       ([0b01011110, 0x34, 0x12], .lsrAbsx 0x1234),
       ([0b00101010], .rolAcc),
       ([0b00100110, 0x9C], .rolZp 0x9C),
       ([0b00110110, 0x9C], .rolZpx 0x9C),
       ([0b00101110, 0x34, 0x12], .rolAbs 0x1234),
       ([0b00111110, 0x34, 0x12], .rolAbsx 0x1234),
       ([0b01101010], .rorAcc),
       ([0b01100110, 0x9C], .rorZp 0x9C),
       ([0b01110110, 0x9C], .rorZpx 0x9C),
       ([0b01101110, 0x34, 0x12], .rorAbs 0x1234),
       ([0b01111110, 0x34, 0x12], .rorAbsx 0x1234)] := by decide

/-- Source: the encoding column of spec/opcode_table.json and R61; operand bytes 9C, or 34 12 for 0x1234 (R63). -/
theorem test_decode_compare :
    ShowsDecoding
      [([0b11001001, 0x9C], .cmpImm 0x9C),
       ([0b11000101, 0x9C], .cmpZp 0x9C),
       ([0b11010101, 0x9C], .cmpZpx 0x9C),
       ([0b11001101, 0x34, 0x12], .cmpAbs 0x1234),
       ([0b11011101, 0x34, 0x12], .cmpAbsx 0x1234),
       ([0b11011001, 0x34, 0x12], .cmpAbsy 0x1234),
       ([0b11000001, 0x9C], .cmpIndx 0x9C),
       ([0b11010001, 0x9C], .cmpIndy 0x9C),
       ([0b11100000, 0x9C], .cpxImm 0x9C),
       ([0b11100100, 0x9C], .cpxZp 0x9C),
       ([0b11101100, 0x34, 0x12], .cpxAbs 0x1234),
       ([0b11000000, 0x9C], .cpyImm 0x9C),
       ([0b11000100, 0x9C], .cpyZp 0x9C),
       ([0b11001100, 0x34, 0x12], .cpyAbs 0x1234),
       ([0b00100100, 0x9C], .bitZp 0x9C),
       ([0b00101100, 0x34, 0x12], .bitAbs 0x1234)] := by decide

/-- Source: the encoding column of spec/opcode_table.json and R61; operand bytes 9C, or 34 12 for 0x1234 (R63). -/
theorem test_decode_incDec :
    ShowsDecoding
      [([0b11100110, 0x9C], .incZp 0x9C),
       ([0b11110110, 0x9C], .incZpx 0x9C),
       ([0b11101110, 0x34, 0x12], .incAbs 0x1234),
       ([0b11111110, 0x34, 0x12], .incAbsx 0x1234),
       ([0b11000110, 0x9C], .decZp 0x9C),
       ([0b11010110, 0x9C], .decZpx 0x9C),
       ([0b11001110, 0x34, 0x12], .decAbs 0x1234),
       ([0b11011110, 0x34, 0x12], .decAbsx 0x1234),
       ([0b11101000], .inx),
       ([0b11001000], .iny),
       ([0b11001010], .dex),
       ([0b10001000], .dey)] := by decide

/-- Source: the encoding column of spec/opcode_table.json and R61; operand bytes 9C, or 34 12 for 0x1234 (R63). -/
theorem test_decode_loadStore :
    ShowsDecoding
      [([0b10101001, 0x9C], .ldaImm 0x9C),
       ([0b10100101, 0x9C], .ldaZp 0x9C),
       ([0b10110101, 0x9C], .ldaZpx 0x9C),
       ([0b10101101, 0x34, 0x12], .ldaAbs 0x1234),
       ([0b10111101, 0x34, 0x12], .ldaAbsx 0x1234),
       ([0b10111001, 0x34, 0x12], .ldaAbsy 0x1234),
       ([0b10100001, 0x9C], .ldaIndx 0x9C),
       ([0b10110001, 0x9C], .ldaIndy 0x9C),
       ([0b10100010, 0x9C], .ldxImm 0x9C),
       ([0b10100110, 0x9C], .ldxZp 0x9C),
       ([0b10110110, 0x9C], .ldxZpy 0x9C),
       ([0b10101110, 0x34, 0x12], .ldxAbs 0x1234),
       ([0b10111110, 0x34, 0x12], .ldxAbsy 0x1234),
       ([0b10100000, 0x9C], .ldyImm 0x9C),
       ([0b10100100, 0x9C], .ldyZp 0x9C),
       ([0b10110100, 0x9C], .ldyZpx 0x9C),
       ([0b10101100, 0x34, 0x12], .ldyAbs 0x1234),
       ([0b10111100, 0x34, 0x12], .ldyAbsx 0x1234),
       ([0b10000101, 0x9C], .staZp 0x9C),
       ([0b10010101, 0x9C], .staZpx 0x9C),
       ([0b10001101, 0x34, 0x12], .staAbs 0x1234),
       ([0b10011101, 0x34, 0x12], .staAbsx 0x1234),
       ([0b10011001, 0x34, 0x12], .staAbsy 0x1234),
       ([0b10000001, 0x9C], .staIndx 0x9C)] ∧
    ShowsDecoding
      [([0b10010001, 0x9C], .staIndy 0x9C),
       ([0b10000110, 0x9C], .stxZp 0x9C),
       ([0b10010110, 0x9C], .stxZpy 0x9C),
       ([0b10001110, 0x34, 0x12], .stxAbs 0x1234),
       ([0b10000100, 0x9C], .styZp 0x9C),
       ([0b10010100, 0x9C], .styZpx 0x9C),
       ([0b10001100, 0x34, 0x12], .styAbs 0x1234),
       ([0b10101010], .tax),
       ([0b10001010], .txa),
       ([0b10101000], .tay),
       ([0b10011000], .tya),
       ([0b10111010], .tsx),
       ([0b10011010], .txs)] := by decide

/-- Source: the encoding column of spec/opcode_table.json and R61; operand bytes 9C, or 34 12 for 0x1234 (R63). -/
theorem test_decode_control :
    ShowsDecoding
      [([0b10010000, 0x9C], .bcc 0x9C),
       ([0b10110000, 0x9C], .bcs 0x9C),
       ([0b11010000, 0x9C], .bne 0x9C),
       ([0b11110000, 0x9C], .beq 0x9C),
       ([0b00010000, 0x9C], .bpl 0x9C),
       ([0b00110000, 0x9C], .bmi 0x9C),
       ([0b01010000, 0x9C], .bvc 0x9C),
       ([0b01110000, 0x9C], .bvs 0x9C),
       ([0b01001100, 0x34, 0x12], .jmpAbs 0x1234),
       ([0b01101100, 0x34, 0x12], .jmpInd 0x1234),
       ([0b00100000, 0x34, 0x12], .jsr 0x1234),
       ([0b01100000], .rts)] := by decide

/-- Source: the encoding column of spec/opcode_table.json and R61; operand bytes 9C, or 34 12 for 0x1234 (R63). -/
theorem test_decode_system :
    ShowsDecoding
      [([0b00000000, 0xEA], .brk),
       ([0b01000000], .rti),
       ([0b01001000], .pha),
       ([0b01101000], .pla),
       ([0b00001000], .php),
       ([0b00101000], .plp),
       ([0b00011000], .clc),
       ([0b00111000], .sec),
       ([0b11011000], .cld),
       ([0b11111000], .sed),
       ([0b01011000], .cli),
       ([0b01111000], .sei),
       ([0b10111000], .clv),
       ([0b11101010], .nop)] := by decide

/-- R67: the first and last bytes the table leaves out, and one inside. -/
theorem test_decode_unmapped :
    decode [0x02, 0xA9] = .unmapped 0x02 ∧ decode [0x89, 0x00, 0x00] = .unmapped 0x89 ∧ decode [0xFF] = .unmapped 0xFF := by decide

/-- An instruction cut short is none (R61), and an empty list has no opcode. -/
theorem test_decode_truncated : decode [0xA9] = .truncated ∧ decode [0xAD, 0x34] = .truncated ∧ decode [] = .truncated := by decide

/-- The table's bit numbering: the operand bytes count on from the opcode byte, low byte first (R63). -/
theorem test_decodeTableWord :
    decodeTableWord 24 0x12346D = some (.adcAbs 0x1234) ∧ decodeTableWord 8 0xA9 = some (.ldaImm 0x00) ∧
    decodeTableWord 8 0xFF = none := by decide

/-! ## One step: vectors of spec/95_test_vectors.md, by their identifiers -/

/-- The state with these bytes stored. -/
def put (s : State) (cells : List (Word × Byte)) : State := cells.foldl (fun (u : State) c => u.memWrite c.1 c.2) s

/-- A state in the start convention of spec/95_test_vectors.md: reset with these registers, the cells on a memory of zeros, the code
at `PC`. -/
def start (a x y sp p : Byte) (pc : Word) (cells : List (Word × Byte)) (code : List Byte) : State :=
  (put { State.reset with a := a, x := x, y := y, sp := sp, p := p, pc := pc } cells).storeBytes pc code

/-- The outcome goes on, to this state. -/
def goesTo (t : State) : Result → Bool
  | .next u => u == t
  | _ => false

/-- The outcome is the halt on this opcode, leaving this state. -/
def haltsAt (op : Byte) (t : State) : Result → Bool
  | .fault (.unknownOpcode k u) => k == op && u == t
  | _ => false

/-- One step goes on, to exactly these registers and, the listed writes apart, the memory there was. -/
abbrev ShowsStep (s : State) (a x y sp p : Byte) (pc : Word) (writes : List (Word × Byte)) : Prop :=
  goesTo { put s writes with a := a, x := x, y := y, sp := sp, p := p, pc := pc } (step s) = true

/-- One step halts on this opcode, with exactly these registers and the memory there was. -/
abbrev ShowsHalt (s : State) (op a x y sp p : Byte) (pc : Word) : Prop :=
  haltsAt op { s with a := a, x := x, y := y, sp := sp, p := p, pc := pc } (step s) = true

/-- Vector S1.2: `LDA #$80`, R150: v = 80: N set, Z clear. -/
theorem test_lda_S1_2 :
    ShowsStep (start 0x00 0x00 0x00 0x00 0x4D 0x0200 [] [0xA9, 0x80])
      0x80 0x00 0x00 0x00 0xCD 0x0202 [] := by decide

/-- Vector M4: `LDA $F0,X`, R96: ZPX wraps inside the zero page: F0 + 20 = 10, not 0110. -/
theorem test_lda_M4 :
    ShowsStep (start 0x00 0x20 0x00 0x00 0x00 0x0200 [(0x0010, 0x5A), (0x0110, 0xEE)] [0xB5, 0xF0])
      0x5A 0x20 0x00 0x00 0x00 0x0202 [] := by decide

/-- Vector M9: `LDA $FFFF,X`, R90: ABSX wraps modulo 65536: FFFF + 02 = 0001. -/
theorem test_lda_M9 :
    ShowsStep (start 0x00 0x02 0x00 0x00 0x00 0x0200 [(0x0001, 0x5A)] [0xBD, 0xFF, 0xFF])
      0x5A 0x02 0x00 0x00 0x00 0x0203 [] := by decide

/-- Vector M10: `LDA $2000,Y`, R91: ABSY. -/
theorem test_lda_M10 :
    ShowsStep (start 0x00 0x00 0xFF 0x00 0x00 0x0200 [(0x20FF, 0x5A)] [0xB9, 0x00, 0x20])
      0x5A 0x00 0xFF 0x00 0x00 0x0203 [] := by decide

/-- Vector M12: `LDA ($FE,X)`, R94: INDX: pointer low at FF, high at 00. -/
theorem test_lda_M12 :
    ShowsStep (start 0x00 0x01 0x00 0x00 0x00 0x0200 [(0x0000, 0x12), (0x00FF, 0x34), (0x0100, 0xEE), (0x1234, 0x5A)] [0xA1, 0xFE])
      0x5A 0x01 0x00 0x00 0x00 0x0202 [] := by decide

/-- Vector M16: `LDA ($FF),Y`, R95: INDY: pointer low at FF, high at 00. -/
theorem test_lda_M16 :
    ShowsStep (start 0x00 0x00 0x01 0x00 0x00 0x0200 [(0x0000, 0x12), (0x00FF, 0x34), (0x0100, 0xEE), (0x1235, 0x5A)] [0xB1, 0xFF])
      0x5A 0x00 0x01 0x00 0x00 0x0202 [] := by decide

/-- Vector M27: `LDA #$5A`, R21: fetch wraps: opcode at FFFF, operand at 0000. -/
theorem test_lda_M27 :
    ShowsStep (start 0x00 0x00 0x00 0x00 0x00 0xFFFF [] [0xA9, 0x5A])
      0x5A 0x00 0x00 0x00 0x00 0x0001 [] := by decide

/-- Vector M28: `LDA $1234`, R21: fetch wraps: opcode at FFFE, operand bytes at FFFF and 0000. -/
theorem test_lda_M28 :
    ShowsStep (start 0x00 0x00 0x00 0x00 0x00 0xFFFE [(0x1234, 0x5A)] [0xAD, 0x34, 0x12])
      0x5A 0x00 0x00 0x00 0x00 0x0001 [] := by decide

/-- Vector M5: `LDX $FF,Y`, R97: ZPY wraps: FF + 02 = 01. -/
theorem test_ldx_M5 :
    ShowsStep (start 0x00 0x00 0x02 0x00 0x00 0x0200 [(0x0001, 0x5A), (0x0101, 0xEE)] [0xB6, 0xFF])
      0x00 0x5A 0x02 0x00 0x00 0x0202 [] := by decide

/-- Vector T2: `LDX #$FF`, R151: plain. -/
theorem test_ldx_T2 :
    ShowsStep (start 0x00 0x00 0x00 0x00 0x00 0x0200 [] [0xA2, 0xFF])
      0x00 0xFF 0x00 0x00 0x80 0x0202 [] := by decide

/-- Vector T4: `LDX $3000,Y`, R151: LDX indexes with Y. -/
theorem test_ldx_T4 :
    ShowsStep (start 0x00 0x09 0x03 0x00 0x00 0x0200 [(0x3003, 0x77)] [0xBE, 0x00, 0x30])
      0x00 0x77 0x03 0x00 0x00 0x0203 [] := by decide

/-- Vector T3: `LDY #$00`, R152: plain. -/
theorem test_ldy_T3 :
    ShowsStep (start 0x00 0x00 0x00 0x00 0x00 0x0200 [] [0xA0, 0x00])
      0x00 0x00 0x00 0x00 0x02 0x0202 [] := by decide

/-- Vector T5: `LDY $3000,X`, R152: LDY indexes with X. -/
theorem test_ldy_T5 :
    ShowsStep (start 0x00 0x03 0x09 0x00 0x00 0x0200 [(0x3003, 0x88)] [0xBC, 0x00, 0x30])
      0x00 0x03 0x88 0x00 0x80 0x0203 [] := by decide

/-- Vector A7: `ADC #$00`, R100: overflow from carry-in. -/
theorem test_adc_A7 :
    ShowsStep (start 0x7F 0x00 0x00 0x00 0x01 0x0200 [] [0x69, 0x00])
      0x80 0x00 0x00 0x00 0xC0 0x0202 [] := by decide

/-- Vector A11: `ADC #$01`, R102: D set: still binary, 0A not 10. -/
theorem test_adc_A11 :
    ShowsStep (start 0x09 0x00 0x00 0x00 0x08 0x0200 [] [0x69, 0x01])
      0x0A 0x00 0x00 0x00 0x08 0x0202 [] := by decide

/-- Vector A23: `ADC $10`, R100: ADC from memory; V, and unrelated flags I kept. -/
theorem test_adc_A23 :
    ShowsStep (start 0x40 0x00 0x00 0x00 0x04 0x0200 [(0x0010, 0x40)] [0x65, 0x10])
      0x80 0x00 0x00 0x00 0xC4 0x0202 [] := by decide

/-- Vector A13: `SBC #$B0`, R101: overflow and borrow. -/
theorem test_sbc_A13 :
    ShowsStep (start 0x50 0x00 0x00 0x00 0x01 0x0200 [] [0xE9, 0xB0])
      0xA0 0x00 0x00 0x00 0xC0 0x0202 [] := by decide

/-- Vector A22: `SBC #$01`, R102: D set: still binary, 0F not 09. -/
theorem test_sbc_A22 :
    ShowsStep (start 0x10 0x00 0x00 0x00 0x09 0x0200 [] [0xE9, 0x01])
      0x0F 0x00 0x00 0x00 0x09 0x0202 [] := by decide

/-- Vector A24: `SBC ($20),Y`, R101: SBC (zp),Y. -/
theorem test_sbc_A24 :
    ShowsStep (start 0x00 0x00 0x05 0x00 0x01 0x0200 [(0x0020, 0x00), (0x0021, 0x30), (0x3005, 0x01)] [0xF1, 0x20])
      0xFF 0x00 0x05 0x00 0x80 0x0202 [] := by decide

/-- Vector S5.2: `CMP #$20`, R130: C, Z cleared; N set. -/
theorem test_cmp_S5_2 :
    ShowsStep (start 0x10 0x00 0x00 0x00 0x03 0x0200 [] [0xC9, 0x20])
      0x10 0x00 0x00 0x00 0x80 0x0202 [] := by decide

/-- Vector C6: `CMP #$01`, R130: not a signed compare: N = 0. -/
theorem test_cmp_C6 :
    ShowsStep (start 0x80 0x00 0x00 0x00 0x00 0x0200 [] [0xC9, 0x01])
      0x80 0x00 0x00 0x00 0x01 0x0202 [] := by decide

/-- Vector C9: `CMP $10`, R130: from memory. -/
theorem test_cmp_C9 :
    ShowsStep (start 0x80 0x00 0x00 0x00 0x00 0x0200 [(0x0010, 0x7F)] [0xC5, 0x10])
      0x80 0x00 0x00 0x00 0x01 0x0202 [] := by decide

/-- Vector S6.1: `ASL A`, R120: accumulator form. -/
theorem test_asl_S6_1 :
    ShowsStep (start 0x80 0x00 0x00 0x00 0x80 0x0200 [] [0x0A])
      0x00 0x00 0x00 0x00 0x03 0x0201 [] := by decide

/-- Vector S6.2: `ASL $40`, R120: memory form; A untouched. -/
theorem test_asl_S6_2 :
    ShowsStep (start 0x55 0x00 0x00 0x00 0x80 0x0200 [(0x0040, 0x80)] [0x06, 0x40])
      0x55 0x00 0x00 0x00 0x03 0x0202 [(0x0040, 0x00)] := by decide

/-- Vector H7: `ASL $10,X`, R120: ZPX. -/
theorem test_asl_H7 :
    ShowsStep (start 0x00 0x05 0x00 0x00 0x00 0x0200 [(0x0015, 0x01)] [0x16, 0x10])
      0x00 0x05 0x00 0x00 0x00 0x0202 [(0x0015, 0x02)] := by decide

/-- Vector S7.1: `.byte $FF`, R220: the source's byte. -/
theorem test_unmapped_S7_1 :
    ShowsHalt (start 0x11 0x22 0x33 0x44 0xC3 0x0200 [] [0xFF])
      0xFF 0x11 0x22 0x33 0x44 0xC3 0x0201 := by decide

/-- Vector E7: `.byte $FF`, R220: at FFFF: PC wraps to 0000. -/
theorem test_unmapped_E7 :
    ShowsHalt (start 0x00 0x00 0x00 0x00 0x00 0xFFFF [] [0xFF])
      0xFF 0x00 0x00 0x00 0x00 0x00 0x0000 := by decide

/-- Vector M19: `STA $F0,X`, R96: store ZPX wraps. -/
theorem test_sta_M19 :
    ShowsStep (start 0x5A 0x20 0x00 0x00 0x00 0x0200 [] [0x95, 0xF0])
      0x5A 0x20 0x00 0x00 0x00 0x0202 [(0x0010, 0x5A)] := by decide

/-- Vector M21: `STA $FFFF,X`, R90: store ABSX wraps to 0001. -/
theorem test_sta_M21 :
    ShowsStep (start 0x5A 0x02 0x00 0x00 0x00 0x0200 [] [0x9D, 0xFF, 0xFF])
      0x5A 0x02 0x00 0x00 0x00 0x0203 [(0x0001, 0x5A)] := by decide

/-- Vector M22: `STA $2000,Y`, R91: store ABSY. -/
theorem test_sta_M22 :
    ShowsStep (start 0x5A 0x00 0xFF 0x00 0x00 0x0200 [] [0x99, 0x00, 0x20])
      0x5A 0x00 0xFF 0x00 0x00 0x0203 [(0x20FF, 0x5A)] := by decide

/-- Vector M23: `STA ($FE,X)`, R94: store INDX through a wrapped pointer. -/
theorem test_sta_M23 :
    ShowsStep (start 0x5A 0x01 0x00 0x00 0x00 0x0200 [(0x0000, 0x12), (0x00FF, 0x34)] [0x81, 0xFE])
      0x5A 0x01 0x00 0x00 0x00 0x0202 [(0x1234, 0x5A)] := by decide

/-- Vector M24: `STA ($86),Y`, R95: store INDY. -/
theorem test_sta_M24 :
    ShowsStep (start 0x5A 0x00 0x10 0x00 0x00 0x0200 [(0x0086, 0x28), (0x0087, 0x40)] [0x91, 0x86])
      0x5A 0x00 0x10 0x00 0x00 0x0202 [(0x4038, 0x5A)] := by decide

/-- Vector T6: `STA $0200`, R153: store over the instruction's own opcode. -/
theorem test_sta_T6 :
    ShowsStep (start 0x2A 0x00 0x00 0x00 0x00 0x0200 [] [0x8D, 0x00, 0x02])
      0x2A 0x00 0x00 0x00 0x00 0x0203 [(0x0200, 0x2A)] := by decide

/-- Vector M20: `STX $FF,Y`, R97: store ZPY wraps. -/
theorem test_stx_M20 :
    ShowsStep (start 0x00 0x5A 0x02 0x00 0x00 0x0200 [] [0x96, 0xFF])
      0x00 0x5A 0x02 0x00 0x00 0x0202 [(0x0001, 0x5A)] := by decide

/-- Vector T9: `STY $1234`, R155: plain. -/
theorem test_sty_T9 :
    ShowsStep (start 0x00 0x00 0x99 0x00 0x00 0x0200 [] [0x8C, 0x34, 0x12])
      0x00 0x00 0x99 0x00 0x00 0x0203 [(0x1234, 0x99)] := by decide

/-- Vector T10: `STY $10,X`, R155: STY ZPX. -/
theorem test_sty_T10 :
    ShowsStep (start 0x00 0x01 0x99 0x00 0x00 0x0200 [] [0x94, 0x10])
      0x00 0x01 0x99 0x00 0x00 0x0202 [(0x0011, 0x99)] := by decide

/-- Vector M25: `JMP ($12FF)`, R93: IND16: high byte from 1300, not 1200. -/
theorem test_jmp_M25 :
    ShowsStep (start 0x00 0x00 0x00 0x00 0x00 0x0200 [(0x1200, 0xEE), (0x12FF, 0x78), (0x1300, 0x56)] [0x6C, 0xFF, 0x12])
      0x00 0x00 0x00 0x00 0x00 0x5678 [] := by decide

/-- Vector M26: `JMP ($FFFF)`, R93: IND16: pointer at FFFF, high byte from 0000. -/
theorem test_jmp_M26 :
    ShowsStep (start 0x00 0x00 0x00 0x00 0x00 0x0200 [(0x0000, 0x56), (0xFFFF, 0x78)] [0x6C, 0xFF, 0xFF])
      0x00 0x00 0x00 0x00 0x00 0x5678 [] := by decide

/-- Vector J1: `JMP $1234`, R180: plain. -/
theorem test_jmp_J1 :
    ShowsStep (start 0x00 0x00 0x00 0x00 0x00 0x0200 [] [0x4C, 0x34, 0x12])
      0x00 0x00 0x00 0x00 0x00 0x1234 [] := by decide

/-- Vector L4: `AND #$0F`, R110: C and V untouched. -/
theorem test_and_L4 :
    ShowsStep (start 0xF0 0x00 0x00 0x00 0x41 0x0200 [] [0x29, 0x0F])
      0x00 0x00 0x00 0x00 0x43 0x0202 [] := by decide

/-- Vector L5: `ORA #$80`, R111: plain. -/
theorem test_ora_L5 :
    ShowsStep (start 0x01 0x00 0x00 0x00 0x00 0x0200 [] [0x09, 0x80])
      0x81 0x00 0x00 0x00 0x80 0x0202 [] := by decide

/-- Vector L7: `ORA $3000`, R111: from memory. -/
theorem test_ora_L7 :
    ShowsStep (start 0xF0 0x00 0x00 0x00 0x00 0x0200 [(0x3000, 0x0F)] [0x0D, 0x00, 0x30])
      0xFF 0x00 0x00 0x00 0x80 0x0203 [] := by decide

/-- Vector L8: `EOR #$FF`, R112: complement. -/
theorem test_eor_L8 :
    ShowsStep (start 0x0F 0x00 0x00 0x00 0x00 0x0200 [] [0x49, 0xFF])
      0xF0 0x00 0x00 0x00 0x80 0x0202 [] := by decide

/-- Vector L11: `EOR ($10,X)`, R112: (zp,X). -/
theorem test_eor_L11 :
    ShowsStep (start 0xAA 0x02 0x00 0x00 0x00 0x0200 [(0x0012, 0x00), (0x0013, 0x40), (0x4000, 0xFF)] [0x41, 0x10])
      0x55 0x02 0x00 0x00 0x00 0x0202 [] := by decide

/-- Vector H10: `LSR A`, R121: plain. -/
theorem test_lsr_H10 :
    ShowsStep (start 0x80 0x00 0x00 0x00 0x01 0x0200 [] [0x4A])
      0x40 0x00 0x00 0x00 0x00 0x0201 [] := by decide

/-- Vector H12: `LSR $3000,X`, R121: ABSX. -/
theorem test_lsr_H12 :
    ShowsStep (start 0x00 0x01 0x00 0x00 0x00 0x0200 [(0x3001, 0x02)] [0x5E, 0x00, 0x30])
      0x00 0x01 0x00 0x00 0x00 0x0203 [(0x3001, 0x01)] := by decide

/-- Vector H14: `ROL A`, R122: old carry enters bit 0. -/
theorem test_rol_H14 :
    ShowsStep (start 0x80 0x00 0x00 0x00 0x01 0x0200 [] [0x2A])
      0x01 0x00 0x00 0x00 0x01 0x0201 [] := by decide

/-- Vector H17: `ROL $10`, R122: memory. -/
theorem test_rol_H17 :
    ShowsStep (start 0x00 0x00 0x00 0x00 0x01 0x0200 [(0x0010, 0x40)] [0x26, 0x10])
      0x00 0x00 0x00 0x00 0x80 0x0202 [(0x0010, 0x81)] := by decide

/-- Vector H19: `ROR A`, R123: old carry enters bit 7. -/
theorem test_ror_H19 :
    ShowsStep (start 0x01 0x00 0x00 0x00 0x01 0x0200 [] [0x6A])
      0x80 0x00 0x00 0x00 0x81 0x0201 [] := by decide

/-- Vector H22: `ROR $3000`, R123: memory. -/
theorem test_ror_H22 :
    ShowsStep (start 0x00 0x00 0x00 0x00 0x00 0x0200 [(0x3000, 0x81)] [0x6E, 0x00, 0x30])
      0x00 0x00 0x00 0x00 0x01 0x0203 [(0x3000, 0x40)] := by decide

/-- Vector C11: `CPX #$06`, R131: plain. -/
theorem test_cpx_C11 :
    ShowsStep (start 0x00 0x05 0x00 0x00 0x00 0x0200 [] [0xE0, 0x06])
      0x00 0x05 0x00 0x00 0x80 0x0202 [] := by decide

/-- Vector C12: `CPX $3000`, R131: plain. -/
theorem test_cpx_C12 :
    ShowsStep (start 0x00 0xFF 0x00 0x00 0x00 0x0200 [(0x3000, 0x01)] [0xEC, 0x00, 0x30])
      0x00 0xFF 0x00 0x00 0x81 0x0203 [] := by decide

/-- Vector C13: `CPY #$10`, R132: plain. -/
theorem test_cpy_C13 :
    ShowsStep (start 0x00 0x00 0x0F 0x00 0x00 0x0200 [] [0xC0, 0x10])
      0x00 0x00 0x0F 0x00 0x80 0x0202 [] := by decide

/-- Vector C14: `CPY $10`, R132: plain. -/
theorem test_cpy_C14 :
    ShowsStep (start 0x00 0x00 0x00 0x00 0x00 0x0200 [(0x0010, 0x00)] [0xC4, 0x10])
      0x00 0x00 0x00 0x00 0x03 0x0202 [] := by decide

/-- Vector C16: `BIT $10`, R133: N, V, Z all set. -/
theorem test_bit_C16 :
    ShowsStep (start 0x00 0x00 0x00 0x00 0x00 0x0200 [(0x0010, 0xC0)] [0x24, 0x10])
      0x00 0x00 0x00 0x00 0xC2 0x0202 [] := by decide

/-- Vector C18: `BIT $3000`, R133: V from bit 6. -/
theorem test_bit_C18 :
    ShowsStep (start 0x40 0x00 0x00 0x00 0x00 0x0200 [(0x3000, 0x40)] [0x2C, 0x00, 0x30])
      0x40 0x00 0x00 0x00 0x40 0x0203 [] := by decide

/-- Vector I2: `INC $10`, R140: wraps; C not set. -/
theorem test_inc_I2 :
    ShowsStep (start 0x00 0x00 0x00 0x00 0x00 0x0200 [(0x0010, 0xFF)] [0xE6, 0x10])
      0x00 0x00 0x00 0x00 0x02 0x0202 [(0x0010, 0x00)] := by decide

/-- Vector I4: `INC $10,X`, R140: ZPX. -/
theorem test_inc_I4 :
    ShowsStep (start 0x00 0x01 0x00 0x00 0x00 0x0200 [(0x0011, 0x00)] [0xF6, 0x10])
      0x00 0x01 0x00 0x00 0x00 0x0202 [(0x0011, 0x01)] := by decide

/-- Vector I5: `INC $3000,X`, R140: ABSX. -/
theorem test_inc_I5 :
    ShowsStep (start 0x00 0x02 0x00 0x00 0x00 0x0200 [(0x3002, 0x09)] [0xFE, 0x00, 0x30])
      0x00 0x02 0x00 0x00 0x00 0x0203 [(0x3002, 0x0A)] := by decide

/-- Vector I7: `DEC $10`, R141: wraps; C untouched. -/
theorem test_dec_I7 :
    ShowsStep (start 0x00 0x00 0x00 0x00 0x01 0x0200 [(0x0010, 0x00)] [0xC6, 0x10])
      0x00 0x00 0x00 0x00 0x81 0x0202 [(0x0010, 0xFF)] := by decide

/-- Vector I8: `DEC $3000`, R141: plain. -/
theorem test_dec_I8 :
    ShowsStep (start 0x00 0x00 0x00 0x00 0x00 0x0200 [(0x3000, 0x80)] [0xCE, 0x00, 0x30])
      0x00 0x00 0x00 0x00 0x00 0x0203 [(0x3000, 0x7F)] := by decide

/-- Vector I10: `INX`, R142: wraps. -/
theorem test_inx_I10 :
    ShowsStep (start 0x00 0xFF 0x00 0x00 0x00 0x0200 [] [0xE8])
      0x00 0x00 0x00 0x00 0x02 0x0201 [] := by decide

/-- Vector I12: `INY`, R143: wraps. -/
theorem test_iny_I12 :
    ShowsStep (start 0x00 0x00 0xFF 0x00 0x00 0x0200 [] [0xC8])
      0x00 0x00 0x00 0x00 0x02 0x0201 [] := by decide

/-- Vector I15: `DEX`, R144: wraps. -/
theorem test_dex_I15 :
    ShowsStep (start 0x00 0x00 0x00 0x00 0x00 0x0200 [] [0xCA])
      0x00 0xFF 0x00 0x00 0x80 0x0201 [] := by decide

/-- Vector I16: `DEY`, R145: wraps. -/
theorem test_dey_I16 :
    ShowsStep (start 0x00 0x00 0x00 0x00 0x00 0x0200 [] [0x88])
      0x00 0x00 0xFF 0x00 0x80 0x0201 [] := by decide

/-- Vector T11: `TAX`, R156: plain. -/
theorem test_tax_T11 :
    ShowsStep (start 0x80 0x00 0x00 0x00 0x00 0x0200 [] [0xAA])
      0x80 0x80 0x00 0x00 0x80 0x0201 [] := by decide

/-- Vector T12: `TXA`, R157: plain. -/
theorem test_txa_T12 :
    ShowsStep (start 0x05 0x00 0x00 0x00 0x00 0x0200 [] [0x8A])
      0x00 0x00 0x00 0x00 0x02 0x0201 [] := by decide

/-- Vector T13: `TAY`, R158: plain. -/
theorem test_tay_T13 :
    ShowsStep (start 0x7F 0x00 0x00 0x00 0x00 0x0200 [] [0xA8])
      0x7F 0x00 0x7F 0x00 0x00 0x0201 [] := by decide

/-- Vector T14: `TYA`, R159: plain. -/
theorem test_tya_T14 :
    ShowsStep (start 0x00 0x00 0xFF 0x00 0x00 0x0200 [] [0x98])
      0xFF 0x00 0xFF 0x00 0x80 0x0201 [] := by decide

/-- Vector T15: `TSX`, R160: flags updated. -/
theorem test_tsx_T15 :
    ShowsStep (start 0x00 0x00 0x00 0xFD 0x00 0x0200 [] [0xBA])
      0x00 0xFD 0x00 0xFD 0x80 0x0201 [] := by decide

/-- Vector T18: `TXS`, R161: X = 00: Z not set. -/
theorem test_txs_T18 :
    ShowsStep (start 0x00 0x00 0x00 0x55 0x00 0x0200 [] [0x9A])
      0x00 0x00 0x00 0x00 0x00 0x0201 [] := by decide

/-- Vector B18: `BCC $0071`, R178: target wraps past FFFF. -/
theorem test_bcc_B18 :
    ShowsStep (start 0x00 0x00 0x00 0x00 0x00 0xFFF0 [] [0x90, 0x7F])
      0x00 0x00 0x00 0x00 0x00 0x0071 [] := by decide

/-- Vector B2: `BCC $0206`, R170: not taken. -/
theorem test_bcc_B2 :
    ShowsStep (start 0x00 0x00 0x00 0x00 0x01 0x0200 [] [0x90, 0x04])
      0x00 0x00 0x00 0x00 0x01 0x0202 [] := by decide

/-- Vector B3: `BCS $0200`, R171: taken, to itself. -/
theorem test_bcs_B3 :
    ShowsStep (start 0x00 0x00 0x00 0x00 0x01 0x0200 [] [0xB0, 0xFE])
      0x00 0x00 0x00 0x00 0x01 0x0200 [] := by decide

/-- Vector B4: `BCS $0200`, R171: not taken. -/
theorem test_bcs_B4 :
    ShowsStep (start 0x00 0x00 0x00 0x00 0x00 0x0200 [] [0xB0, 0xFE])
      0x00 0x00 0x00 0x00 0x00 0x0202 [] := by decide

/-- Vector B5: `BNE $020D`, R172: taken backwards. -/
theorem test_bne_B5 :
    ShowsStep (start 0x00 0x00 0x00 0x00 0x00 0x0210 [] [0xD0, 0xFB])
      0x00 0x00 0x00 0x00 0x00 0x020D [] := by decide

/-- Vector B6: `BNE $020D`, R172: not taken. -/
theorem test_bne_B6 :
    ShowsStep (start 0x00 0x00 0x00 0x00 0x02 0x0210 [] [0xD0, 0xFB])
      0x00 0x00 0x00 0x00 0x02 0x0212 [] := by decide

/-- Vector B7: `BEQ $0312`, R173: taken. -/
theorem test_beq_B7 :
    ShowsStep (start 0x00 0x00 0x00 0x00 0x02 0x0300 [] [0xF0, 0x10])
      0x00 0x00 0x00 0x00 0x02 0x0312 [] := by decide

/-- Vector B8: `BEQ $0312`, R173: not taken. -/
theorem test_beq_B8 :
    ShowsStep (start 0x00 0x00 0x00 0x00 0x00 0x0300 [] [0xF0, 0x10])
      0x00 0x00 0x00 0x00 0x00 0x0302 [] := by decide

/-- Vector B9: `BPL $0481`, R174: largest forward. -/
theorem test_bpl_B9 :
    ShowsStep (start 0x00 0x00 0x00 0x00 0x00 0x0400 [] [0x10, 0x7F])
      0x00 0x00 0x00 0x00 0x00 0x0481 [] := by decide

/-- Vector B10: `BPL $0481`, R174: not taken. -/
theorem test_bpl_B10 :
    ShowsStep (start 0x00 0x00 0x00 0x00 0x80 0x0400 [] [0x10, 0x7F])
      0x00 0x00 0x00 0x00 0x80 0x0402 [] := by decide

/-- Vector B11: `BMI $0382`, R175: largest backward. -/
theorem test_bmi_B11 :
    ShowsStep (start 0x00 0x00 0x00 0x00 0x80 0x0400 [] [0x30, 0x80])
      0x00 0x00 0x00 0x00 0x80 0x0382 [] := by decide

/-- Vector B12: `BMI $0382`, R175: not taken. -/
theorem test_bmi_B12 :
    ShowsStep (start 0x00 0x00 0x00 0x00 0x00 0x0400 [] [0x30, 0x80])
      0x00 0x00 0x00 0x00 0x00 0x0402 [] := by decide

/-- Vector B13: `BVC $0204`, R176: taken. -/
theorem test_bvc_B13 :
    ShowsStep (start 0x00 0x00 0x00 0x00 0x00 0x0200 [] [0x50, 0x02])
      0x00 0x00 0x00 0x00 0x00 0x0204 [] := by decide

/-- Vector B14: `BVC $0204`, R176: not taken. -/
theorem test_bvc_B14 :
    ShowsStep (start 0x00 0x00 0x00 0x00 0x40 0x0200 [] [0x50, 0x02])
      0x00 0x00 0x00 0x00 0x40 0x0202 [] := by decide

/-- Vector B15: `BVS $0204`, R177: taken. -/
theorem test_bvs_B15 :
    ShowsStep (start 0x00 0x00 0x00 0x00 0x40 0x0200 [] [0x70, 0x02])
      0x00 0x00 0x00 0x00 0x40 0x0204 [] := by decide

/-- Vector B16: `BVS $0204`, R177: not taken. -/
theorem test_bvs_B16 :
    ShowsStep (start 0x00 0x00 0x00 0x00 0x00 0x0200 [] [0x70, 0x02])
      0x00 0x00 0x00 0x00 0x00 0x0202 [] := by decide

/-- Vector J5: `JSR $0300`, R181: S = 00 (reset): high byte at 0100, low at 01FF. -/
theorem test_jsr_J5 :
    ShowsStep (start 0x00 0x00 0x00 0x00 0x00 0x0200 [] [0x20, 0x00, 0x03])
      0x00 0x00 0x00 0xFE 0x00 0x0300 [(0x0100, 0x02), (0x01FF, 0x02)] := by decide

/-- Vector J6: `JSR $0300`, R181: last byte at FFFF: pushes FFFF. -/
theorem test_jsr_J6 :
    ShowsStep (start 0x00 0x00 0x00 0xFF 0x00 0xFFFD [] [0x20, 0x00, 0x03])
      0x00 0x00 0x00 0xFD 0x00 0x0300 [(0x01FF, 0xFF), (0x01FE, 0xFF)] := by decide

/-- Vector J8: `RTS`, R182: S wraps: low from 01FF, high from 0100. -/
theorem test_rts_J8 :
    ShowsStep (start 0x00 0x00 0x00 0xFE 0x00 0x0200 [(0x0100, 0x12), (0x01FF, 0x34)] [0x60])
      0x00 0x00 0x00 0x00 0x00 0x1235 [] := by decide

/-- Vector J9: `RTS`, R182: FFFF + 1 wraps to 0000. -/
theorem test_rts_J9 :
    ShowsStep (start 0x00 0x00 0x00 0xFD 0x00 0x0200 [(0x01FE, 0xFF), (0x01FF, 0xFF)] [0x60])
      0x00 0x00 0x00 0xFF 0x00 0x0000 [] := by decide

/-- Vector K4: `BRK (pad $EA)`, R190: D is not cleared; stack wraps. -/
theorem test_brk_K4 :
    ShowsStep (start 0x00 0x00 0x00 0x01 0x08 0x0200 [(0xFFFA, 0x00), (0xFFFB, 0x80)] [0x00, 0xEA])
      0x00 0x00 0x00 0xFE 0x0C 0x8000 [(0x0101, 0x02), (0x0100, 0x02), (0x01FF, 0x18)] := by decide

/-- Vector K5: `BRK (pad $EA)`, R190: break at FFFF: padding at 0000, pushes 0001. -/
theorem test_brk_K5 :
    ShowsStep (start 0x00 0x00 0x00 0xFF 0x00 0xFFFF [(0xFFFA, 0x00), (0xFFFB, 0x80)] [0x00, 0xEA])
      0x00 0x00 0x00 0xFC 0x04 0x8000 [(0x01FF, 0x00), (0x01FE, 0x01), (0x01FD, 0x10)] := by decide

/-- Vector K7: `RTI`, R191: pulled FF gives P = CF; no +1 on the address. -/
theorem test_rti_K7 :
    ShowsStep (start 0x00 0x00 0x00 0xFC 0x00 0x8000 [(0x01FD, 0xFF), (0x01FE, 0x34), (0x01FF, 0x12)] [0x40])
      0x00 0x00 0x00 0xFF 0xCF 0x1234 [] := by decide

/-- Vector K8: `RTI`, R191: old U and B of P are not kept. -/
theorem test_rti_K8 :
    ShowsStep (start 0x00 0x00 0x00 0xFC 0x30 0x8000 [(0x01FD, 0x00), (0x01FE, 0x00), (0x01FF, 0x03)] [0x40])
      0x00 0x00 0x00 0xFF 0x00 0x0300 [] := by decide

/-- Vector K10: `PHA`, R192: S = 00 wraps to FF. -/
theorem test_pha_K10 :
    ShowsStep (start 0x42 0x00 0x00 0x00 0x00 0x0200 [] [0x48])
      0x42 0x00 0x00 0xFF 0x00 0x0201 [(0x0100, 0x42)] := by decide

/-- Vector K12: `PLA`, R193: S = FF wraps to 00; zero pulled. -/
theorem test_pla_K12 :
    ShowsStep (start 0x55 0x00 0x00 0xFF 0x00 0x0200 [] [0x68])
      0x00 0x00 0x00 0x00 0x02 0x0201 [] := by decide

/-- Vector K13: `PHP`, R194: pushed copy has bits 5, 4 set; P unchanged. -/
theorem test_php_K13 :
    ShowsStep (start 0x00 0x00 0x00 0xFF 0x81 0x0200 [] [0x08])
      0x00 0x00 0x00 0xFE 0x81 0x0201 [(0x01FF, 0xB1)] := by decide

/-- Vector K15: `PLP`, R195: no masking: U and B of P become 1. -/
theorem test_plp_K15 :
    ShowsStep (start 0x00 0x00 0x00 0xFE 0x00 0x0200 [(0x01FF, 0xB1)] [0x28])
      0x00 0x00 0x00 0xFF 0xB1 0x0201 [] := by decide

/-- Vector K17: `CLC`, R200: plain. -/
theorem test_clc_K17 :
    ShowsStep (start 0x00 0x00 0x00 0x00 0x83 0x0200 [] [0x18])
      0x00 0x00 0x00 0x00 0x82 0x0201 [] := by decide

/-- Vector K18: `SEC`, R201: plain. -/
theorem test_sec_K18 :
    ShowsStep (start 0x00 0x00 0x00 0x00 0x00 0x0200 [] [0x38])
      0x00 0x00 0x00 0x00 0x01 0x0201 [] := by decide

/-- Vector K19: `CLD`, R202: plain. -/
theorem test_cld_K19 :
    ShowsStep (start 0x00 0x00 0x00 0x00 0x09 0x0200 [] [0xD8])
      0x00 0x00 0x00 0x00 0x01 0x0201 [] := by decide

/-- Vector K20: `SED`, R203: plain. -/
theorem test_sed_K20 :
    ShowsStep (start 0x00 0x00 0x00 0x00 0x00 0x0200 [] [0xF8])
      0x00 0x00 0x00 0x00 0x08 0x0201 [] := by decide

/-- Vector K21: `CLI`, R204: plain. -/
theorem test_cli_K21 :
    ShowsStep (start 0x00 0x00 0x00 0x00 0x04 0x0200 [] [0x58])
      0x00 0x00 0x00 0x00 0x00 0x0201 [] := by decide

/-- Vector K22: `SEI`, R205: plain. -/
theorem test_sei_K22 :
    ShowsStep (start 0x00 0x00 0x00 0x00 0x00 0x0200 [] [0x78])
      0x00 0x00 0x00 0x00 0x04 0x0201 [] := by decide

/-- Vector K23: `CLV`, R206: plain. -/
theorem test_clv_K23 :
    ShowsStep (start 0x00 0x00 0x00 0x00 0xC0 0x0200 [] [0xB8])
      0x00 0x00 0x00 0x00 0x80 0x0201 [] := by decide

/-- Vector K25: `NOP`, R215: nothing but PC changes. -/
theorem test_nop_K25 :
    ShowsStep (start 0x01 0x02 0x03 0x04 0xFF 0x0200 [] [0xEA])
      0x01 0x02 0x03 0x04 0xFF 0x0201 [] := by decide

/-! ## Witnesses: a concrete state and operands that meet the hypotheses of each statement that has some -/

/-- A state for witnesses: everything of reset, with the code at 0x0200. -/
def codeAt0200 (code : List Byte) : State := start 0x00 0x00 0x00 0x00 0x00 0x0200 [] code

theorem witness_stepRunsDecodedInstruction :
    decode ((codeAt0200 [0xA9, 0x5A]).bytesAt (codeAt0200 [0xA9, 0x5A]).pc 3) = .instr (.ldaImm 0x5A) [0x00] ∧
    decode ((codeAt0200 [0x02]).bytesAt (codeAt0200 [0x02]).pc 3) = .unmapped 0x02 := by decide

/-- At the last address: the operand bytes come from 0x0000 and 0x0001 (R21). -/
theorem witness_stepRunsDecodedInstruction_edge :
    decode ((start 0 0 0 0 0 0xFFFF [] [0xAD, 0x34, 0x12]).bytesAt 0xFFFF 3) = .instr (.ldaAbs 0x1234) [] ∧
    decode ((start 0 0 0 0 0 0xFFFF [] [0xFF]).bytesAt 0xFFFF 3) = .unmapped 0xFF := by decide

theorem witness_unmappedOpcodeHalts : (codeAt0200 [0xFF]).memRead (codeAt0200 [0xFF]).pc ∈ unmappedOpcodes := by decide

/-- Both sides of the two outcomes occur. -/
theorem witness_stepHasTwoOutcomes :
    (codeAt0200 [0xEA]).memRead 0x0200 ∉ unmappedOpcodes ∧ (codeAt0200 [0x02]).memRead 0x0200 ∈ unmappedOpcodes := by decide

theorem witness_decodeInvertsEncode : (Instr.adcAbs 0xFFFF).wellFormed = true ∧ Instr.brk.wellFormed = true := by decide

theorem witness_encodeInvertsDecode :
    (decode [0x8D, 0x34, 0x12, 0xEA] = .instr (.staAbs 0x1234) [0xEA] ∧ (Instr.staAbs 0x1234).length ≤ 4) ∧
    decode [0x00, 0x77] = .instr .brk [] ∧ Instr.brk.length ≤ 2 := by decide

theorem witness_placedWordIsRun : decodeTableWord 16 0x5AA9 = some (.ldaImm 0x5A) := by decide

/-- `ADC` immediate and through the wrapping pointer, and its bytes at `PC`. -/
theorem witness_adcForms :
    (0x69, .adcImm 0x05, .imm 0x05) ∈ adcForms 0x05 0x0000 ∧ (0x71, .adcIndy 0xFF, .mem (.indy 0xFF)) ∈ adcForms 0xFF 0x0000 ∧
    (codeAt0200 [0x69, 0x05]).bytesAt (codeAt0200 [0x69, 0x05]).pc (Instr.adcImm 0x05).length = encode (.adcImm 0x05) := by decide

theorem witness_sbcForms : (0xED, .sbcAbs 0x1234, .mem (.abs 0x1234)) ∈ sbcForms 0x00 0x1234 := by decide

theorem witness_decimal : (0xE9, .sbcImm 0x01, .imm 0x01) ∈ adcForms 0x01 0x0000 ++ sbcForms 0x01 0x0000 := by decide

theorem witness_logicForms :
    (0x29, .andImm 0x0F, .imm 0x0F) ∈ andForms 0x0F 0x0000 ∧ (0x0D, .oraAbs 0xFFFF, .mem (.abs 0xFFFF)) ∈ oraForms 0x00 0xFFFF ∧
    (0x41, .eorIndx 0xFE, .mem (.indx 0xFE)) ∈ eorForms 0xFE 0x0000 := by decide

theorem witness_shiftForms :
    (0x0A, .aslAcc, .acc) ∈ aslForms 0x00 0x0000 State.reset ∧
    (0x46, .lsrZp 0xFF, .mem 0x00FF) ∈ lsrForms 0xFF 0x0000 State.reset := by decide

theorem witness_rotateForms :
    (0x2E, .rolAbs 0xFFFF, .mem 0xFFFF) ∈ rolForms 0x00 0xFFFF State.reset ∧
    (0x6A, .rorAcc, .acc) ∈ rorForms 0x00 0x0000 State.reset := by decide

theorem witness_compareForms :
    (0xC9, .cmpImm 0x10, .imm 0x10) ∈ cmpForms 0x10 0x0000 ∧ (0xE4, .cpxZp 0x10, .mem (.zp 0x10)) ∈ cpxForms 0x10 0x0000 ∧
    (0xCC, .cpyAbs 0x3000, .mem (.abs 0x3000)) ∈ cpyForms 0x00 0x3000 := by decide

theorem witness_bitForms : (0x24, .bitZp 0x10, .mem (.zp 0x10)) ∈ bitForms 0x10 0x0000 := by decide

theorem witness_incDecForms :
    (0xE6, .incZp 0x10, .mem 0x0010) ∈ incForms 0x10 0x0000 State.reset ∧
    (0xDE, .decAbsx 0xFFFF, .mem 0xFFFF) ∈ decForms 0x00 0xFFFF State.reset := by decide

theorem witness_loadForms :
    (0xA1, .ldaIndx 0x20, .mem (.indx 0x20)) ∈ ldaForms 0x20 0x0000 ∧ (0xB6, .ldxZpy 0xFF, .mem (.zpy 0xFF)) ∈ ldxForms 0xFF 0x0000 ∧
    (0xA0, .ldyImm 0x00, .imm 0x00) ∈ ldyForms 0x00 0x0000 := by decide

theorem witness_storeForms :
    (0x91, .staIndy 0x86, .indy 0x86) ∈ staForms 0x86 0x0000 ∧ (0x96, .stxZpy 0xFF, .zpy 0xFF) ∈ stxForms 0xFF 0x0000 ∧
    (0x8C, .styAbs 0x1234, .abs 0x1234) ∈ styForms 0x00 0x1234 := by decide

/-- The branch statement's list with a branch taken and one not taken, in the reset state, at the largest displacements. -/
theorem witness_branches :
    (0x90, .bcc 0x7F, !State.reset.flag .c) = ((0x90, .bcc 0x7F, true) : Byte × Instr × Bool) ∧
    (0xB0, .bcs 0x80, State.reset.flag .c) = ((0xB0, .bcs 0x80, false) : Byte × Instr × Bool) := by decide

/-- The bytes of a branch, a call and a break at `PC`. -/
theorem witness_transferBytes :
    (codeAt0200 [0x90, 0x7F]).bytesAt (codeAt0200 [0x90, 0x7F]).pc 2 = [0x90, 0x7F] ∧
    (codeAt0200 [0x20, 0x00, 0x03]).bytesAt (codeAt0200 [0x20, 0x00, 0x03]).pc 3 = [0x20, loByte 0x0300, hiByte 0x0300] ∧
    (codeAt0200 [0x00, 0xEA]).memRead (codeAt0200 [0x00, 0xEA]).pc = 0x00 := by decide

/-- The code of the call witness: the call, and the return at its target. -/
def callState : State := (codeAt0200 [0x20, 0x00, 0x03]).memWrite 0x0300 0x60

theorem witness_callThenReturn :
    decode (callState.bytesAt callState.pc 3) = .instr (.jsr 0x0300) [] ∧
    ∃ t, step callState = .next t ∧ t.pc = 0x0300 ∧ t.memRead 0x0300 = 0x60 := ⟨by decide, _, rfl, by decide, by decide⟩

theorem witness_returnFromBreak : Flag.c ≠ Flag.u ∧ Flag.c ≠ Flag.b := by decide

theorem witness_flagInstructions :
    ((0xB8, .clv, .v, false) : Byte × Instr × Flag × Bool) ∈
      [(0x18, .clc, .c, false), (0x38, .sec, .c, true), (0xD8, .cld, .d, false), (0xF8, .sed, .d, true),
       (0x58, .cli, .i, false), (0x78, .sei, .i, true), (0xB8, .clv, .v, false)] := by decide

theorem witness_nop : (codeAt0200 [0xEA]).memRead (codeAt0200 [0xEA]).pc = 0xEA := by decide

theorem witness_onlyWritersChangeAFlag :
    (∃ t, exec (.ldaImm 0x00) State.reset = .next t) ∧ (Instr.ldaImm 0x00).asm.mnemonic ∉ Flag.c.writers := ⟨⟨_, rfl⟩, by decide⟩

theorem witness_onlyWritersChangeARegister :
    (∃ t, exec (.aslZp 0x40) State.reset = .next t) ∧ writesReg (.aslZp 0x40) .a = false ∧ writesReg .aslAcc .a = true :=
  ⟨⟨_, rfl⟩, by decide, by decide⟩

theorem witness_onlyControlTransfersMovePc :
    decode ((codeAt0200 [0x69, 0x03]).bytesAt (codeAt0200 [0x69, 0x03]).pc 3) = .instr (.adcImm 0x03) [0x00] ∧
    (∃ t, step (codeAt0200 [0x69, 0x03]) = .next t) ∧ (Instr.adcImm 0x03).asm.mnemonic ∉ pcWriters :=
  ⟨by decide, ⟨_, rfl⟩, by decide⟩

/-- A push stores at 0x0100 + S, and the address after it is not one of its stored bytes. -/
theorem witness_onlyStoredBytesChange :
    (∃ t, exec .pha State.reset = .next t) ∧ (0x0101 : Word) ∉ State.reset.storedBy .pha ∧ State.reset.storedBy .pha = [0x0100] :=
  ⟨⟨_, rfl⟩, by decide, by decide⟩

theorem witness_stepKeepsCanonicalMemory :
    (codeAt0200 [0x48]).Inv ∧ (∃ t, step (codeAt0200 [0x48]) = .next t) ∧
    (codeAt0200 [0xFF]).Inv ∧ ∃ r, step (codeAt0200 [0xFF]) = .fault r := ⟨by decide, ⟨_, rfl⟩, by decide, _, rfl⟩

/-- A step that is not a `PLP`'s from a state in which U is already 1. -/
theorem witness_onlyPlpRaises :
    ∃ t, step { codeAt0200 [0xEA] with p := 0x20 } = .next t ∧ t.flag .u = true ∧
      ({ codeAt0200 [0xEA] with p := 0x20 } : State).memRead 0x0200 ≠ 0x28 := ⟨_, rfl, by decide, by decide⟩

/-- Each kind of instruction and flag the statement on inert flags admits. -/
theorem witness_inert :
    (Flag.d ∈ [Flag.u, Flag.b, Flag.d, Flag.i] ∧ (Instr.adcImm 0x01 = .php → Flag.d = .u ∨ Flag.d = .b) ∧
      (Instr.adcImm 0x01 = .brk → Flag.d = .b)) ∧
    (Flag.u ∈ [Flag.u, Flag.b, Flag.d, Flag.i] ∧ (Instr.php = .php → Flag.u = .u ∨ Flag.u = .b) ∧ (Instr.php = .brk → Flag.u = .b)) ∧
    (Flag.b ∈ [Flag.u, Flag.b, Flag.d, Flag.i] ∧ (Instr.brk = .php → Flag.b = .u ∨ Flag.b = .b) ∧ (Instr.brk = .brk → Flag.b = .b)) := by
  decide

/-- Two steps: a `NOP`, then the unmapped byte 0xFF at 0x0201. -/
theorem witness_runEnds :
    RunEnds 2 (codeAt0200 [0xEA, 0xFF]) 0xFF { codeAt0200 [0xEA, 0xFF] with pc := 0x0202 } := rfl

/-- A memory that is not in canonical form is told apart: a byte equal to an unlisted one, and two cells out of order. -/
theorem test_memory_not_canonical :
    Memory.wf [(0x10, 0x00)] = false ∧ Memory.wf [(0x11, 0x01), (0x10, 0x02)] = false ∧ Memory.wf [(0x10000, 0x01)] = false := by decide

/-- From reset with nothing placed, the first step runs the `BRK` that zeros decode to (log 7); a placed word is run instead. -/
theorem test_first_step_from_reset :
    step State.reset = exec .brk (State.reset.setPc 0x0201) ∧
    goesTo { State.reset.withFetchWord 16 0x5AA9 with a := 0x5A, pc := 0x0202 } (step (State.reset.withFetchWord 16 0x5AA9)) = true :=
  ⟨rfl, by decide⟩

end Sys2Proof.Tests
end

section
/-! SUPPORT. The statements about the state as a whole (spec/10_state.md): what each instruction can do is said once (`Meaning`), and
the frame, the `PC` and the agreement of two executions are read off it. -/

namespace Sys2Proof.Machine

/-! ## What `exec` can do, said once for the 151 instructions, in the terms of the shared operations. -/

/-- A part of a state that `P` plays no part in. -/
def IgnoresP {α : Type} (g : State → α) : Prop := ∀ (s : State) (p : Byte), g (s.setP p) = g s

theorem IgnoresP.setFlag {α : Type} {g : State → α} (hg : IgnoresP g) (s : State) (f : Flag) (v : Bool) :
    g (s.setFlag f v) = g s := hg s _

/-- Among the registers and flags an instruction writes are all of these (the tables of R13 and R28). -/
def covers (i : Instr) (regs : List Reg) (flags : List Flag) : Bool :=
  regs.all (writesReg i) && flags.all fun f => f.writers.contains i.asm.mnemonic

/-- The meanings of the instructions: every instruction runs one of the shared operations, on values that are functions of the
state. A constructor also says what the instruction's rows of R13, R23, R28 and R46 must hold for that operation. -/
inductive Meaning : Instr → (State → State) → Prop
  | loadA {i : Instr} (g : State → Byte) : IgnoresP g → covers i [.a] [.n, .z] = true → Meaning i fun s => s.loadA (g s)
  | loadX {i : Instr} (g : State → Byte) : IgnoresP g → covers i [.x] [.n, .z] = true → Meaning i fun s => s.loadX (g s)
  | loadY {i : Instr} (g : State → Byte) : IgnoresP g → covers i [.y] [.n, .z] = true → Meaning i fun s => s.loadY (g s)
  | adc {i : Instr} (g : State → Byte) : IgnoresP g → covers i [.a] [.n, .v, .z, .c] = true → Meaning i fun s => s.adc (g s)
  | sbc {i : Instr} (g : State → Byte) : IgnoresP g → covers i [.a] [.n, .v, .z, .c] = true → Meaning i fun s => s.sbc (g s)
  | compare {i : Instr} (r g : State → Byte) : IgnoresP r → IgnoresP g → covers i [] [.n, .z, .c] = true →
      Meaning i fun s => s.compare (r s) (g s)
  | bitTest {i : Instr} (g : State → Byte) : IgnoresP g → covers i [] [.n, .v, .z] = true → Meaning i fun s => s.bitTest (g s)
  | shift {i : Instr} (carry : Byte → Bool) (val : Byte → Bool → Byte) (loc : State → Location) : IgnoresP loc →
      (∀ s, covers i (loc s).regs [.n, .z, .c] = true) → (∀ s, (loc s).addrs ⊆ s.storedBy i) →
      Meaning i fun s => s.shiftTo (loc s) (carry (s.locationRead (loc s))) (val (s.locationRead (loc s)) (s.flag .c))
  | modify {i : Instr} (op : Byte → Byte) (addr : State → Word) : IgnoresP addr → covers i [] [.n, .z] = true →
      (∀ s, [addr s] ⊆ s.storedBy i) →
      Meaning i fun s => (s.memWrite (addr s) (op (s.memRead (addr s)))).setNZ (op (s.memRead (addr s)))
  | store {i : Instr} (addr : State → Word) (g : State → Byte) : IgnoresP addr → IgnoresP g →
      (∀ s, [addr s] ⊆ s.storedBy i) → Meaning i fun s => s.memWrite (addr s) (g s)
  | setFlag {i : Instr} (f : Flag) (v : Bool) : covers i [] [f] = true → Meaning i fun s => s.setFlag f v
  | branch {i : Instr} (f : Flag) (test : Bool → Bool) (d : Byte) : f ∈ [Flag.n, .v, .z, .c] →
      pcWriters.contains i.asm.mnemonic = true → Meaning i fun s => s.branch (test (s.flag f)) d
  | jump {i : Instr} (g : State → Word) : IgnoresP g → pcWriters.contains i.asm.mnemonic = true → Meaning i fun s => s.setPc (g s)
  | jsr (w : Word) : Meaning (.jsr w) fun s => s.call w
  | rts : Meaning .rts State.returnFromCall
  | brk : Meaning .brk State.takeBreak
  | rti : Meaning .rti State.returnFromBreak
  | pha : Meaning .pha fun s => s.push s.a
  | pla : Meaning .pla fun s => s.pull.2.loadA s.pull.1
  | php : Meaning .php fun s => s.push (s.p ||| 0x30)
  | plp : Meaning .plp fun s => s.pull.2.setP s.pull.1
  | txs : Meaning .txs fun s => s.setSp s.x
  | nop : Meaning .nop fun s => s

/-- Every instruction goes on from every state, by one meaning. -/
theorem exec_meaning (i : Instr) : ∃ F : State → State, (∀ s, exec i s = .next (F s)) ∧ Meaning i F := by
  cases i with
  | adcImm | adcZp | adcZpx | adcAbs | adcAbsx | adcAbsy | adcIndx | adcIndy =>
    exact ⟨_, fun _ => rfl, .adc _ (fun _ _ => rfl) rfl⟩
  | sbcImm | sbcZp | sbcZpx | sbcAbs | sbcAbsx | sbcAbsy | sbcIndx | sbcIndy =>
    exact ⟨_, fun _ => rfl, .sbc _ (fun _ _ => rfl) rfl⟩
  | andImm | andZp | andZpx | andAbs | andAbsx | andAbsy | andIndx | andIndy | oraImm | oraZp | oraZpx | oraAbs | oraAbsx
  | oraAbsy | oraIndx | oraIndy | eorImm | eorZp | eorZpx | eorAbs | eorAbsx | eorAbsy | eorIndx | eorIndy | ldaImm | ldaZp
  | ldaZpx | ldaAbs | ldaAbsx | ldaAbsy | ldaIndx | ldaIndy | txa | tya =>
    exact ⟨_, fun _ => rfl, .loadA _ (fun _ _ => rfl) rfl⟩
  | ldxImm | ldxZp | ldxZpy | ldxAbs | ldxAbsy | tax | tsx | inx | dex =>
    exact ⟨_, fun _ => rfl, .loadX _ (fun _ _ => rfl) rfl⟩
  | ldyImm | ldyZp | ldyZpx | ldyAbs | ldyAbsx | tay | iny | dey =>
    exact ⟨_, fun _ => rfl, .loadY _ (fun _ _ => rfl) rfl⟩
  | cmpImm | cmpZp | cmpZpx | cmpAbs | cmpAbsx | cmpAbsy | cmpIndx | cmpIndy | cpxImm | cpxZp | cpxAbs | cpyImm | cpyZp
  | cpyAbs =>
    exact ⟨_, fun _ => rfl, .compare _ _ (fun _ _ => rfl) (fun _ _ => rfl) rfl⟩
  | bitZp | bitAbs => exact ⟨_, fun _ => rfl, .bitTest _ (fun _ _ => rfl) rfl⟩
  | aslAcc | aslZp | aslZpx | aslAbs | aslAbsx =>
    exact ⟨_, fun _ => rfl, .shift (·.getLsbD 7) (fun v _ => aslValue v) _ (fun _ _ => rfl) (fun _ => rfl) fun _ => List.Subset.refl _⟩
  | lsrAcc | lsrZp | lsrZpx | lsrAbs | lsrAbsx =>
    exact ⟨_, fun _ => rfl, .shift (·.getLsbD 0) (fun v _ => lsrValue v) _ (fun _ _ => rfl) (fun _ => rfl) fun _ => List.Subset.refl _⟩
  | rolAcc | rolZp | rolZpx | rolAbs | rolAbsx =>
    exact ⟨_, fun _ => rfl, .shift (·.getLsbD 7) rolValue _ (fun _ _ => rfl) (fun _ => rfl) fun _ => List.Subset.refl _⟩
  | rorAcc | rorZp | rorZpx | rorAbs | rorAbsx =>
    exact ⟨_, fun _ => rfl, .shift (·.getLsbD 0) rorValue _ (fun _ _ => rfl) (fun _ => rfl) fun _ => List.Subset.refl _⟩
  | incZp | incZpx | incAbs | incAbsx =>
    exact ⟨_, fun _ => rfl, .modify (· + 1) _ (fun _ _ => rfl) rfl fun _ => List.Subset.refl _⟩
  | decZp | decZpx | decAbs | decAbsx =>
    exact ⟨_, fun _ => rfl, .modify (· - 1) _ (fun _ _ => rfl) rfl fun _ => List.Subset.refl _⟩
  | staZp | staZpx | staAbs | staAbsx | staAbsy | staIndx | staIndy | stxZp | stxZpy | stxAbs | styZp | styZpx | styAbs =>
    exact ⟨_, fun _ => rfl, .store _ _ (fun _ _ => rfl) (fun _ _ => rfl) fun _ => List.Subset.refl _⟩
  | clc | sec | cld | sed | cli | sei | clv => exact ⟨_, fun _ => rfl, .setFlag _ _ rfl⟩
  | bcc d => exact ⟨_, fun _ => rfl, .branch .c not d (by decide) rfl⟩
  | bcs d => exact ⟨_, fun _ => rfl, .branch .c id d (by decide) rfl⟩
  | bne d => exact ⟨_, fun _ => rfl, .branch .z not d (by decide) rfl⟩
  | beq d => exact ⟨_, fun _ => rfl, .branch .z id d (by decide) rfl⟩
  | bpl d => exact ⟨_, fun _ => rfl, .branch .n not d (by decide) rfl⟩
  | bmi d => exact ⟨_, fun _ => rfl, .branch .n id d (by decide) rfl⟩
  | bvc d => exact ⟨_, fun _ => rfl, .branch .v not d (by decide) rfl⟩
  | bvs d => exact ⟨_, fun _ => rfl, .branch .v id d (by decide) rfl⟩
  | jmpAbs | jmpInd => exact ⟨_, fun _ => rfl, .jump _ (fun _ _ => rfl) rfl⟩
  | jsr w => exact ⟨_, fun _ => rfl, .jsr w⟩
  | rts => exact ⟨_, fun _ => rfl, .rts⟩
  | brk => exact ⟨_, fun _ => rfl, .brk⟩
  | rti => exact ⟨_, fun _ => rfl, .rti⟩
  | pha => exact ⟨_, fun _ => rfl, .pha⟩
  | pla => exact ⟨_, fun _ => rfl, .pla⟩
  | php => exact ⟨_, fun _ => rfl, .php⟩
  | plp => exact ⟨_, fun _ => rfl, .plp⟩
  | txs => exact ⟨_, fun _ => rfl, .txs⟩
  | nop => exact ⟨_, fun _ => rfl, .nop⟩

/-- The state an instruction goes on to is its meaning's. -/
theorem meaning_of_exec {i : Instr} {s t : State} (h : exec i s = .next t) : ∃ F, Meaning i F ∧ t = F s := by
  obtain ⟨F, hF, hm⟩ := exec_meaning i
  rw [hF] at h
  cases h
  exact ⟨F, hm, rfl⟩

/-! ## Frames of the meanings (R13, R23, R28, R46). -/

/-- A larger frame. -/
theorem Frame.mono {rs rs' : List Reg} {fs fs' : List Flag} {as as' : List Word} {s t : State} (h : Frame rs fs as s t)
    (hr : rs ⊆ rs') (hf : fs ⊆ fs') (ha : as ⊆ as') : Frame rs' fs' as' s t :=
  ⟨fun r hn => h.regs r fun hm => hn (hr hm), fun f hn => h.flags f fun hm => hn (hf hm),
   fun a hn => h.mem a fun hm => hn (ha hm)⟩

/-- The registers an instruction writes, by the table under R13. -/
def writtenRegs (i : Instr) : List Reg := [.a, .x, .y, .s].filter (writesReg i)

/-- The flags an instruction writes, by the table of R28. -/
def writtenFlags (i : Instr) : List Flag :=
  [.n, .v, .u, .b, .d, .i, .z, .c].filter fun f => f.writers.contains i.asm.mnemonic

@[simp] theorem mem_writtenRegs (i : Instr) (r : Reg) : r ∈ writtenRegs i ↔ writesReg i r = true := by
  cases r <;> simp [writtenRegs]

@[simp] theorem mem_writtenFlags (i : Instr) (f : Flag) : f ∈ writtenFlags i ↔ i.asm.mnemonic ∈ f.writers := by
  cases f <;> simp [writtenFlags]

/-- The frame of an operation is one of the instruction's, when the instruction's rows cover it. -/
theorem Frame.of_covers {i : Instr} {regs : List Reg} {flags : List Flag} {stored : List Word} {s t : State}
    (h : Frame regs flags stored s t) (hc : covers i regs flags = true) (hs : stored ⊆ s.storedBy i) :
    Frame (writtenRegs i) (writtenFlags i) (s.storedBy i) s t := by
  simp only [covers, Bool.and_eq_true, List.all_eq_true, List.contains_iff_mem] at hc
  exact h.mono (fun r hr => (mem_writtenRegs i r).2 (hc.1 r hr)) (fun f hf => (mem_writtenFlags i f).2 (hc.2 f hf)) hs

/-- Nothing changes from a state to itself. -/
theorem State.refl_frame (s : State) : Frame [] [] [] s s := ⟨fun _ _ => rfl, fun _ _ => rfl, fun _ _ => rfl⟩

/-- A frame says nothing of `PC`. -/
theorem Frame.setPc {regs : List Reg} {flags : List Flag} {stored : List Word} {s t : State} (h : Frame regs flags stored s t)
    (w : Word) : Frame regs flags stored s (t.setPc w) :=
  ⟨h.regs, h.flags, h.mem⟩

theorem State.pull_loadA_frame (s : State) (v : Byte) : Frame [.a, .s] [.n, .z] [] s (s.pull.2.loadA v) :=
  let h := s.pull.2.loadA_frame v
  let hs := s.setSp_frame (s.sp + 1)
  ⟨fun r hr => (h.regs r (by simp_all)).trans (hs.regs r (by simp_all)), h.flags, h.mem⟩

/-- A frame in which every flag may change. -/
theorem Frame.setP {regs : List Reg} {flags : List Flag} {stored : List Word} {s t : State} (h : Frame regs flags stored s t)
    (p : Byte) : Frame regs [.n, .v, .u, .b, .d, .i, .z, .c] stored s (t.setP p) :=
  ⟨h.regs, fun f hf => by cases f <;> simp at hf, h.mem⟩

theorem State.pullWord_frame (s : State) : Frame [.s] [] [] s s.pullWord.2 := s.setSp_frame (s.sp + 1 + 1)

theorem State.returnFromBreak_frame (s : State) :
    Frame [.s] [.n, .v, .u, .b, .d, .i, .z, .c] [] s s.returnFromBreak := by
  have h := (s.setSp_frame (s.sp + 1 + 1 + 1)).setP (s.memRead (stackAddr (s.sp + 1)) &&& 0xCF)
  rw [s.returnFromBreak_eq]
  exact h.setPc _

/-- An instruction's meaning changes only what the instruction's rows of R13, R28 and R46 list. -/
theorem Meaning.frame {i : Instr} {F : State → State} (h : Meaning i F) (s : State) :
    Frame (writtenRegs i) (writtenFlags i) (s.storedBy i) s (F s) := by
  cases h with
  | loadA g _ hc => exact (s.loadA_frame _).of_covers hc (List.nil_subset _)
  | loadX g _ hc => exact (s.loadX_frame _).of_covers hc (List.nil_subset _)
  | loadY g _ hc => exact (s.loadY_frame _).of_covers hc (List.nil_subset _)
  | adc g _ hc => exact (s.adc_frame _).of_covers hc (List.nil_subset _)
  | sbc g _ hc => exact (s.sbc_frame _).of_covers hc (List.nil_subset _)
  | compare r g _ _ hc => exact (s.compare_frame _ _).of_covers hc (List.nil_subset _)
  | bitTest g _ hc => exact (s.bitTest_frame _).of_covers hc (List.nil_subset _)
  | shift carry val loc _ hc hs => exact (s.shiftTo_frame _ _ _).of_covers (hc s) (hs s)
  | modify op addr _ hc hs => exact (s.locationWrite_frame _ _).of_covers hc (hs s)
  | store addr g _ _ hs => exact (s.memWrite_frame _ _).of_covers rfl (hs s)
  | setFlag f v hc => exact (s.setFlag_frame f v).of_covers hc (List.nil_subset _)
  | branch f test d => exact (s.branch_frame _ d).of_covers rfl (List.nil_subset _)
  | jump g => exact (s.setPc_frame _).of_covers rfl (List.nil_subset _)
  | jsr w => exact ((s.pushWord_frame _).setPc w).of_covers rfl (List.Subset.refl _)
  | rts => exact (s.pullWord_frame.setPc _).of_covers rfl (List.nil_subset _)
  | brk => exact s.takeBreak_frame.of_covers rfl (List.Subset.refl _)
  | rti => exact s.returnFromBreak_frame.of_covers rfl (List.nil_subset _)
  | pha => exact (s.push_frame _).of_covers rfl (List.Subset.refl _)
  | pla => exact (s.pull_loadA_frame _).of_covers rfl (List.nil_subset _)
  | php => exact (s.push_frame _).of_covers rfl (List.Subset.refl _)
  | plp => exact ((s.setSp_frame (s.sp + 1)).setP _).of_covers rfl (List.nil_subset _)
  | txs => exact (s.setSp_frame s.x).of_covers rfl (List.nil_subset _)
  | nop => exact s.refl_frame.of_covers rfl (List.nil_subset _)

/-- The frame of an instruction: it changes only what its rows of R13, R28 and R46 list. -/
theorem exec_frame {i : Instr} {s t : State} (h : exec i s = .next t) :
    Frame (writtenRegs i) (writtenFlags i) (s.storedBy i) s t := by
  obtain ⟨F, hm, rfl⟩ := meaning_of_exec h
  exact hm.frame s

/-- Settles O46: the frame of `exec`, read at one flag. -/
theorem onlyWritersChangeAFlag : Obligations.OnlyWritersChangeAFlag := by
  intro i s t f h hf
  exact (exec_frame h).flags f (by simpa using hf)

/-- Settles O47: the frame of `exec`, read at one register. -/
theorem onlyWritersChangeARegister : Obligations.OnlyWritersChangeARegister := by
  intro i s t r h hr
  exact (exec_frame h).regs r (by simp [hr])

/-! ## Agreement but for one flag (R28, R102, R224): each operation keeps it, unless it reads the flag. -/

section Agreement

variable {f : Flag} {s t : State}

theorem AgreeBut.setFlag_right (s : State) (f : Flag) (v : Bool) : AgreeBut f s (s.setFlag f v) :=
  ⟨rfl, rfl, rfl, rfl, rfl, rfl, fun g hg => by simp [hg]⟩

/-! The writes of the fields, of equal values. -/

theorem AgreeBut.setA (h : AgreeBut f s t) (v : Byte) : AgreeBut f (s.setA v) (t.setA v) :=
  ⟨rfl, h.x, h.y, h.sp, h.pc, h.mem, h.flags⟩

theorem AgreeBut.setX (h : AgreeBut f s t) (v : Byte) : AgreeBut f (s.setX v) (t.setX v) :=
  ⟨h.a, rfl, h.y, h.sp, h.pc, h.mem, h.flags⟩

theorem AgreeBut.setY (h : AgreeBut f s t) (v : Byte) : AgreeBut f (s.setY v) (t.setY v) :=
  ⟨h.a, h.x, rfl, h.sp, h.pc, h.mem, h.flags⟩

theorem AgreeBut.setSp (h : AgreeBut f s t) (v : Byte) : AgreeBut f (s.setSp v) (t.setSp v) :=
  ⟨h.a, h.x, h.y, rfl, h.pc, h.mem, h.flags⟩

theorem AgreeBut.setPc (h : AgreeBut f s t) (w : Word) : AgreeBut f (s.setPc w) (t.setPc w) :=
  ⟨h.a, h.x, h.y, h.sp, rfl, h.mem, h.flags⟩

theorem AgreeBut.setP (h : AgreeBut f s t) (p : Byte) : AgreeBut f (s.setP p) (t.setP p) :=
  ⟨h.a, h.x, h.y, h.sp, h.pc, h.mem, fun _ _ => rfl⟩

theorem AgreeBut.memWrite (h : AgreeBut f s t) (a : Word) (v : Byte) : AgreeBut f (s.memWrite a v) (t.memWrite a v) :=
  ⟨h.a, h.x, h.y, h.sp, h.pc, by simp [h.mem], h.flags⟩

theorem AgreeBut.setFlag (h : AgreeBut f s t) (g : Flag) (v : Bool) : AgreeBut f (s.setFlag g v) (t.setFlag g v) :=
  ⟨h.a, h.x, h.y, h.sp, h.pc, h.mem, fun k hk => by simp [h.flags k hk]⟩

theorem AgreeBut.setNZ (h : AgreeBut f s t) (v : Byte) : AgreeBut f (s.setNZ v) (t.setNZ v) :=
  (h.setFlag .n _).setFlag .z _

/-! What the two states read alike. -/

theorem AgreeBut.memRead (h : AgreeBut f s t) (a : Word) : t.memRead a = s.memRead a := by
  simp [State.memRead, h.mem]

theorem AgreeBut.locationRead (h : AgreeBut f s t) (loc : Location) : t.locationRead loc = s.locationRead loc := by
  cases loc with
  | acc => exact h.a
  | mem a => exact h.memRead a

/-- A mask that holds the flag hides it (`PHP` and `BRK` push `P` with such masks). -/
theorem AgreeBut.p_or (h : AgreeBut f s t) {m : Byte} (hm : getFlag m f = true) : t.p ||| m = s.p ||| m := by
  have hor (p : Byte) (g : Flag) : getFlag (p ||| m) g = (getFlag p g || getFlag m g) := BitVec.getLsbD_or
  refine flags_ext fun g => ?_
  rw [hor, hor]
  by_cases hg : g = f
  · rw [hg, hm, Bool.or_true, Bool.or_true]
  · exact congrArg (· || getFlag m g) (h.flags g hg)

/-! The shared operations. -/

theorem AgreeBut.adc (h : AgreeBut f s t) (hc : .c ≠ f) (m : Byte) : AgreeBut f (s.adc m) (t.adc m) := by
  simp only [State.adc, h.a, h.flags .c hc]
  exact (((h.setFlag _ _).setFlag _ _).setA _).setNZ _

theorem AgreeBut.sbc (h : AgreeBut f s t) (hc : .c ≠ f) (m : Byte) : AgreeBut f (s.sbc m) (t.sbc m) := by
  simp only [State.sbc, h.a, h.flags .c hc]
  exact (((h.setFlag _ _).setFlag _ _).setA _).setNZ _

theorem AgreeBut.bitTest (h : AgreeBut f s t) (m : Byte) : AgreeBut f (s.bitTest m) (t.bitTest m) := by
  simp only [State.bitTest, h.a]
  exact ((h.setFlag _ _).setFlag _ _).setFlag _ _

theorem AgreeBut.locationWrite (h : AgreeBut f s t) (loc : Location) (v : Byte) :
    AgreeBut f (s.locationWrite loc v) (t.locationWrite loc v) := by
  cases loc with
  | acc => exact h.setA v
  | mem a => exact h.memWrite a v

theorem AgreeBut.shiftTo (h : AgreeBut f s t) (loc : Location) (c : Bool) (r : Byte) :
    AgreeBut f (s.shiftTo loc c r) (t.shiftTo loc c r) :=
  ((h.setFlag .c c).locationWrite loc r).setNZ r

theorem AgreeBut.branch (h : AgreeBut f s t) (taken : Bool) (d : Byte) : AgreeBut f (s.branch taken d) (t.branch taken d) := by
  rw [State.branch_eq, State.branch_eq, h.pc]
  exact h.setPc _

theorem AgreeBut.push (h : AgreeBut f s t) (v : Byte) : AgreeBut f (s.push v) (t.push v) := by
  simp only [State.push, h.sp]
  exact (h.memWrite _ v).setSp _

theorem AgreeBut.pushWord (h : AgreeBut f s t) (w : Word) : AgreeBut f (s.pushWord w) (t.pushWord w) :=
  (h.push _).push _

theorem AgreeBut.pull_value (h : AgreeBut f s t) : t.pull.1 = s.pull.1 := by
  rw [State.pull_value, State.pull_value, h.sp, h.memRead]

theorem AgreeBut.pull (h : AgreeBut f s t) : AgreeBut f s.pull.2 t.pull.2 := by
  simp only [State.pull, h.sp]
  exact h.setSp _

theorem AgreeBut.pullWord_value (h : AgreeBut f s t) : t.pullWord.1 = s.pullWord.1 := by
  simp only [State.pullWord, h.pull_value, h.pull.pull_value]

theorem AgreeBut.pullWord (h : AgreeBut f s t) : AgreeBut f s.pullWord.2 t.pullWord.2 := h.pull.pull

theorem AgreeBut.call (h : AgreeBut f s t) (w : Word) : AgreeBut f (s.call w) (t.call w) := by
  simp only [State.call, h.pc]
  exact (h.pushWord _).setPc w

theorem AgreeBut.returnFromCall (h : AgreeBut f s t) : AgreeBut f s.returnFromCall t.returnFromCall := by
  simp only [State.returnFromCall, h.pullWord_value]
  exact h.pullWord.setPc _

/-- `BRK` pushes every flag but B (R190). -/
theorem AgreeBut.takeBreak (h : AgreeBut f s t) (hf : f = .b) : AgreeBut f s.takeBreak t.takeBreak := by
  have hp : t.p ||| 0x10 = s.p ||| 0x10 := h.p_or (by rw [hf]; rfl)
  rw [State.takeBreak_eq, State.takeBreak_eq, h.pc, hp, h.memRead, h.memRead]
  exact ((((h.setPc _).pushWord _).push _).setPc _).setFlag _ _

theorem AgreeBut.returnFromBreak (h : AgreeBut f s t) : AgreeBut f s.returnFromBreak t.returnFromBreak := by
  rw [State.returnFromBreak_eq, State.returnFromBreak_eq, h.sp, h.memRead, h.memRead, h.memRead]
  exact ((h.setP _).setSp _).setPc _

end Agreement

/-- A meaning keeps agreement but for U, B, D or I, unless it pushes the flag (R28). -/
theorem Meaning.inert {i : Instr} {F : State → State} (hm : Meaning i F) (s : State) {f : Flag} (v : Bool)
    (hf : f ∈ [Flag.u, .b, .d, .i]) (hphp : i = .php → f = .u ∨ f = .b) (hbrk : i = .brk → f = .b) :
    AgreeBut f (F s) (F (s.setFlag f v)) := by
  have h := AgreeBut.setFlag_right s f v
  have hne {g : Flag} (hg : g ∈ [Flag.n, .v, .z, .c]) : g ≠ f := by
    rintro rfl
    cases g <;> simp at hf hg
  have hc : .c ≠ f := hne (by decide)
  cases hm with
  | loadA g hg => simp only [hg.setFlag]; exact (h.setA _).setNZ _
  | loadX g hg => simp only [hg.setFlag]; exact (h.setX _).setNZ _
  | loadY g hg => simp only [hg.setFlag]; exact (h.setY _).setNZ _
  | adc g hg => simp only [hg.setFlag]; exact h.adc hc _
  | sbc g hg => simp only [hg.setFlag]; exact h.sbc hc _
  | compare r g hr hg => simp only [hr.setFlag, hg.setFlag]; exact (h.setFlag .c _).setNZ _
  | bitTest g hg => simp only [hg.setFlag]; exact h.bitTest _
  | shift carry val loc hl => simp only [hl.setFlag, h.locationRead, h.flags .c hc]; exact h.shiftTo _ _ _
  | modify op addr ha => simp only [ha.setFlag, h.memRead]; exact (h.memWrite _ _).setNZ _
  | store addr g ha hg => simp only [ha.setFlag, hg.setFlag]; exact h.memWrite _ _
  | setFlag g u => exact h.setFlag g u
  | branch g test d hg => simp only [h.flags g (hne hg)]; exact h.branch _ d
  | jump g hg => simp only [hg.setFlag]; exact h.setPc _
  | jsr w => exact h.call w
  | rts => exact h.returnFromCall
  | brk => exact h.takeBreak (hbrk rfl)
  | rti => exact h.returnFromBreak
  | pha => exact h.push s.a
  | pla => simp only [h.pull_value]; exact (h.pull.setA _).setNZ _
  | php =>
    have hmask : getFlag 0x30 f = true := by rcases hphp rfl with rfl | rfl <;> rfl
    simp only [h.p_or hmask]
    exact h.push _
  | plp => simp only [h.pull_value]; exact h.pull.setP _
  | txs => exact h.setSp s.x
  | nop => exact h

/-- Settles O52: both executions go on by one meaning, and the meaning keeps agreement but for the flag. -/
theorem unusedBreakDecimalInterruptFlagsAreInert : Obligations.UnusedBreakDecimalInterruptFlagsAreInert := by
  intro i s f v hf hphp hbrk
  obtain ⟨F, hF, hm⟩ := exec_meaning i
  exact ⟨F s, F (s.setFlag f v), hF s, hF _, hm.inert s v hf hphp hbrk⟩

/-! ## Steps: `PC` after a step (R22, R23), and the flags U and B (R29, R191, R195). -/

/-- A meaning that is no control transfer leaves `PC` alone (R23). -/
theorem Meaning.pc_eq {i : Instr} {F : State → State} (h : Meaning i F) (hi : i.asm.mnemonic ∉ pcWriters) (s : State) :
    (F s).pc = s.pc := by
  cases h with
  | loadA | loadX | loadY | adc | sbc | compare | bitTest | modify | store | setFlag | pha | pla | php | plp | txs | nop => rfl
  | shift carry val loc => exact s.shiftTo_pc ..
  | branch f test d _ hm | jump g _ hm => exact absurd (List.contains_iff_mem.1 hm) hi
  | jsr | rts | brk | rti => exact absurd (List.contains_iff_mem.1 rfl) hi

theorem exec_pc {i : Instr} {s t : State} (h : exec i s = .next t) (hi : i.asm.mnemonic ∉ pcWriters) : t.pc = s.pc := by
  obtain ⟨F, hm, rfl⟩ := meaning_of_exec h
  exact hm.pc_eq hi s

/-- A step that goes on runs the instruction that the bytes at `PC` decode to, with `PC` past the fetched bytes; the byte at `PC` is
the instruction's opcode (R65, R80). -/
theorem step_next_cases {s t : State} (h : step s = .next t) :
    ∃ i rest, decode (s.bytesAt s.pc 3) = .instr i rest ∧ (encode i).head? = some (s.memRead s.pc) ∧
      exec i (s.setPc (s.pc + BitVec.ofNat 16 i.fetched)) = .next t := by
  have henc := pattern_encodes (s.memRead s.pc)
  rw [step_eq] at h
  rw [s.bytesAt_three, decode_three]
  cases hp : pattern (s.memRead s.pc) with
  | op i | opPad i =>
    rw [hp] at h henc
    obtain ⟨hb, -, hf⟩ := henc 0
    exact ⟨i, _, rfl, by rw [encode, hb]; rfl, by rw [hf]; exact h⟩
  | opB form | opW form =>
    rw [hp] at h henc
    obtain ⟨hb, -, hf⟩ := henc 0 _
    exact ⟨_, _, rfl, by rw [encode, hb]; rfl, by rw [hf]; exact h⟩
  | unmapped => rw [hp] at h; cases h

/-- Only `BRK` leaves a byte of its length unfetched (R190). -/
theorem fetched_eq_length {i : Instr} (hi : i.asm.mnemonic ∉ pcWriters) : i.fetched = i.length := by
  cases i with
  | brk => exact absurd (by decide) hi
  | _ => rfl

/-- Settles O48: a step runs the decoded instruction with `PC` past its bytes, and the instruction leaves `PC` there. -/
theorem onlyControlTransfersMovePc : Obligations.OnlyControlTransfersMovePc := by
  intro s t i rest hdec hstep hi
  obtain ⟨j, rest', hdec', -, hexec⟩ := step_next_cases hstep
  cases hdec.symm.trans hdec'
  rw [exec_pc hexec hi, fetched_eq_length hi, State.setPc_pc]

/-- U and B have two writers, `PLP` and `RTI` (R28). -/
theorem eq_plp_or_rti {i : Instr} {f : Flag} (hf : f ∈ [Flag.u, .b]) (hi : i.asm.mnemonic ∈ f.writers) : i = .plp ∨ i = .rti := by
  have hmn : i.asm.mnemonic ∈ [Mnemonic.plp, .rti] := by
    simp only [List.mem_cons, List.not_mem_nil, or_false] at hf
    rcases hf with rfl | rfl <;> exact hi
  cases i with
  | plp => exact .inl rfl
  | rti => exact .inr rfl
  | _ => simp [Instr.asm] at hmn

/-- `RTI` leaves U and B clear (R191). -/
theorem State.returnFromBreak_flag (s : State) {f : Flag} (hf : f ∈ [Flag.u, .b]) : s.returnFromBreak.flag f = false := by
  have h := getFlag_rti (s.memRead (stackAddr (s.sp + 1))) f
  rw [s.returnFromBreak_eq, State.setPc_flag, State.setSp_flag, State.setP_flag, h]
  simp only [List.mem_cons, List.not_mem_nil, or_false] at hf
  rcases hf with rfl | rfl <;> rfl

/-- Settles O51: of the two writers of U and B, `PLP` has the opcode 28 and `RTI` clears them. -/
theorem onlyPlpRaisesUnusedAndBreak : Obligations.OnlyPlpRaisesUnusedAndBreak := by
  intro s t f hf hstep hop ht
  obtain ⟨i, -, -, hhead, hexec⟩ := step_next_cases hstep
  by_cases hi : i.asm.mnemonic ∈ f.writers
  · rcases eq_plp_or_rti hf hi with rfl | rfl
    · exact absurd (Option.some.inj hhead).symm hop
    · cases hexec
      rw [State.returnFromBreak_flag _ hf] at ht
      cases ht
  · rw [← ht, onlyWritersChangeAFlag i _ t f hexec hi, State.setPc_flag]

/-! ## Construction, `SetNZ` and the observation (R27, R30 to R32). -/

/-- Settles O1: the registers are those of the definition, and memory is the image's. -/
theorem constructionResets : Obligations.ConstructionResets := fun image entry =>
  ⟨rfl, rfl, rfl, rfl, rfl, rfl, Memory.wf_ofFn image, State.construct_memRead image entry⟩

/-- An image of unlisted bytes has no cells. -/
theorem Memory.ofFn_unlisted : Memory.ofFn (fun _ => Config.unlisted) = [] := by
  unfold Memory.ofFn Memory.imageBelow
  refine List.filter_eq_nil_iff.2 fun c hc => ?_
  obtain ⟨k, -, rfl⟩ := List.mem_map.1 hc
  simp

/-- Settles O2: the image of unlisted bytes is the empty memory of the reset state. -/
theorem resetIsAConstruction : Obligations.ResetIsAConstruction :=
  ⟨State.ext_fields rfl rfl rfl rfl rfl rfl Memory.ofFn_unlisted, State.wf_reset⟩

theorem State.setNZ_frame (s : State) (v : Byte) : Frame [] [.n, .z] [] s (s.setNZ v) :=
  let h := s.loadA_frame v
  ⟨fun r _ => by cases r <;> rfl, h.flags, h.mem⟩

theorem State.setNZ_nz (s : State) (v : Byte) : SetsNZ v (s.setNZ v) := by simp [SetsNZ]

/-- Settles O4: N and Z are those of the value, and the frame is N and Z. -/
theorem setNZWritesBoth : Obligations.SetNZWritesBoth := by
  intro s v
  obtain ⟨hn, hz⟩ := s.setNZ_nz v
  refine ⟨hn, ?_, s.setNZ_frame v, rfl⟩
  rw [hz, beq_iff_eq, ← BitVec.toNat_inj]
  rfl

/-- Settles O54: `PC` is the word of its two bytes. -/
theorem observationShowsRegisters : Obligations.ObservationShowsRegisters := by
  intro s
  refine ⟨rfl, rfl, rfl, rfl, rfl, rfl, ?_⟩
  have h := mkWord_toNat (loByte s.pc) (hiByte s.pc)
  rwa [mkWord_lo_hi] at h

end Sys2Proof.Machine
end

section
/-! SUPPORT. The statements about memory and the stack (spec/20_memory.md): reads and writes, effective addresses, the bytes a step
fetches, and the canonical form after a step. -/

namespace Sys2Proof.Machine

/-! ## The bytes an instruction stores, and the canonical form of memory (R41, R42, R46, R59). -/

/-- Settles O49: the frame of `exec`, read at one address. -/
theorem onlyStoredBytesChange : Obligations.OnlyStoredBytesChange := fun _ _ _ addr h => (exec_frame h).mem addr

/-- A branch keeps the canonical form. -/
theorem State.wf_branch {s : State} (h : s.mem.wf = true) (taken : Bool) (d : Byte) : (s.branch taken d).mem.wf = true := by
  rw [State.branch_eq]
  exact h

/-- A meaning keeps the canonical form: it writes memory only by stores, pushes and writes to a location, each of which does. -/
theorem Meaning.inv {i : Instr} {F : State → State} (h : Meaning i F) {s : State} (hs : s.Inv) : (F s).Inv := by
  cases h with
  | loadA | loadX | loadY | adc | sbc | compare | bitTest | setFlag | jump | rts | rti | pla | plp | txs | nop => exact hs
  | branch => exact State.wf_branch hs ..
  | shift => exact State.wf_shiftTo hs ..
  | modify | store => exact State.wf_memWrite hs ..
  | pha | php => exact State.wf_push hs _
  | jsr => exact State.wf_pushWord hs _
  | brk => exact State.wf_takeBreak hs

/-- No instruction faults: each goes on by its meaning (R221). -/
theorem exec_ne_fault (i : Instr) (s : State) (r : Fault) : exec i s ≠ .fault r := by
  obtain ⟨F, hF, -⟩ := exec_meaning i
  intro h
  cases (hF s).symm.trans h

/-- A step that ends in a fault leaves memory as it was (R220). -/
theorem step_fault_mem {s : State} {r : Fault} (h : step s = .fault r) : r.after.mem = s.mem := by
  rw [step_eq] at h
  cases hp : pattern (s.memRead s.pc) with
  | op i | opPad i | opB f | opW f =>
    rw [hp] at h
    exact absurd h (exec_ne_fault _ _ r)
  | unmapped =>
    rw [hp] at h
    cases h
    rfl

/-- Settles O50: a step that goes on runs a meaning from a state with this memory, and a halt leaves memory as it was. -/
theorem stepKeepsCanonicalMemory : Obligations.StepKeepsCanonicalMemory := by
  refine fun s hs => ⟨fun t h => ?_, fun r h => ?_⟩
  · obtain ⟨i, -, -, -, hexec⟩ := step_next_cases h
    obtain ⟨F, hm, rfl⟩ := meaning_of_exec hexec
    exact hm.inv hs
  · rw [State.Inv, step_fault_mem h]
    exact hs

/-! ## A byte of memory, and the stack (R41, R47, R48). -/

/-- Settles O3: the rules of a read after a write, and the frame of a write. -/
theorem memWriteReplacesOneByte : Obligations.MemWriteReplacesOneByte := fun s addr v =>
  ⟨by simp, s.memWrite_frame addr v, rfl, fun u => by simp⟩

/-- Settles O5: a push is a write at the stack location, then a write of S. -/
theorem pushWritesThenDecrements : Obligations.PushWritesThenDecrements := by
  refine fun s v => ⟨stackAddr_toNat s.sp, by simp, ?_, rfl, s.push_frame v⟩
  rw [State.push_sp]
  bv_omega

/-- Settles O6: a pull is a write of S; after a push the new S is the old one again. -/
theorem pullIncrementsThenReads : Obligations.PullIncrementsThenReads := by
  intro s v
  have hsp : (s.push v).sp + 1 = s.sp := BitVec.sub_add_cancel s.sp 1
  refine ⟨?_, rfl, stackAddr_toNat _, rfl, s.setSp_frame _, ?_, hsp⟩
  · rw [State.pull_sp, BitVec.toNat_add]
    rfl
  · rw [State.pull_value, hsp, State.push_memRead, if_pos rfl]

/-! ## Effective addresses in numbers (R50, R51, R89 to R97). -/

/-- A byte sum zero-extended is the sum modulo 256. -/
theorem zext16_add_toNat (u v : Byte) : (zext16 (u + v)).toNat = (u.toNat + v.toNat) % 256 := by
  rw [zext16_toNat, BitVec.toNat_add]

/-- An unsigned index added to an address is added modulo 65536. -/
theorem add_zext16_toNat (w : Word) (b : Byte) : (w + zext16 b).toNat = (w.toNat + b.toNat) % 65536 := by
  rw [BitVec.toNat_add, zext16_toNat]

/-- A zero-page pointer in numbers: its high byte is read inside the zero page (R50, D6). -/
theorem State.pointer_toNat (s : State) (z : Byte) :
    (s.pointer z).toNat = 256 * (s.mem.read ((z.toNat + 1) % 256)).toNat + (s.mem.read z.toNat).toNat := by
  rw [State.pointer, mkWord_toNat, State.memRead, State.memRead, zext16_add_toNat, zext16_toNat]
  rfl

/-- Settles O7: each mode's address by the rules of its sum and of the pointer. -/
theorem zeroPageArithmeticIsEightBit : Obligations.ZeroPageArithmeticIsEightBit := by
  refine fun s b => ⟨zext16_toNat b, zext16_add_toNat b s.x, zext16_add_toNat b s.y, s.pointer_toNat, ?_, ?_⟩
  · rw [State.ea, s.pointer_toNat, BitVec.toNat_add, Nat.mod_add_mod]
  · rw [State.ea, add_zext16_toNat, s.pointer_toNat]

/-- Settles O8: the absolute modes by the rule of their sum, a two-byte read by the order of its bytes. -/
theorem absoluteArithmeticIsSixteenBit : Obligations.AbsoluteArithmeticIsSixteenBit := by
  refine fun s w => ⟨rfl, add_zext16_toNat w s.x, add_zext16_toNat w s.y, ?_⟩
  rw [State.memRead16, mkWord_toNat, State.memRead, State.memRead, BitVec.toNat_add]
  rfl

/-! ## The bytes at `PC` are the instruction a step runs (R21, R56, R65). -/

/-- The row of the opcode map an instruction comes from. -/
inductive RowOf : Pattern → Instr → Prop
  | op (i : Instr) : RowOf (.op i) i
  | opPad (i : Instr) : RowOf (.opPad i) i
  | opB (f : Byte → Instr) (b : Byte) : RowOf (.opB f) (f b)
  | opW (f : Word → Instr) (w : Word) : RowOf (.opW f) (f w)

/-- The opcode byte of an instruction, by the encoder. -/
def opcodeOf (i : Instr) : Byte := (encode i).headD 0

/-- The decoder's row at an instruction's opcode byte is that instruction's (R65, R66). -/
theorem rowOf_opcodeOf (i : Instr) : RowOf (pattern (opcodeOf i)) i := by
  cases i with
  | aslAcc | lsrAcc | rolAcc | rorAcc | inx | iny | dex | dey | tax | txa | tay | tya | tsx | txs | rts | rti | pha | pla | php
  | plp | clc | sec | cld | sed | cli | sei | clv | nop => exact .op _
  | brk => exact .opPad _
  | adcAbs w | adcAbsx w | adcAbsy w | sbcAbs w | sbcAbsx w | sbcAbsy w | andAbs w | andAbsx w | andAbsy w | oraAbs w | oraAbsx w
  | oraAbsy w | eorAbs w | eorAbsx w | eorAbsy w | aslAbs w | aslAbsx w | lsrAbs w | lsrAbsx w | rolAbs w | rolAbsx w | rorAbs w
  | rorAbsx w | cmpAbs w | cmpAbsx w | cmpAbsy w | cpxAbs w | cpyAbs w | bitAbs w | incAbs w | incAbsx w | decAbs w | decAbsx w
  | ldaAbs w | ldaAbsx w | ldaAbsy w | ldxAbs w | ldxAbsy w | ldyAbs w | ldyAbsx w | staAbs w | staAbsx w | staAbsy w | stxAbs w
  | styAbs w | jmpAbs w | jmpInd w | jsr w => exact .opW _ w
  | _ b => exact .opB _ b

/-- The encoding, whatever the padding byte, is as long as the instruction (R60, R61). -/
theorem encodeWith_length (pad : Byte) (i : Instr) : (encodeWith pad i).length = i.length := by
  have hrow := rowOf_opcodeOf i
  have henc := pattern_encodes (opcodeOf i)
  generalize pattern (opcodeOf i) = p at hrow henc
  cases hrow with
  | op | opPad =>
    obtain ⟨hb, hl, -⟩ := henc pad
    rw [hb, hl]
    rfl
  | opB _ u | opW _ u =>
    obtain ⟨hb, hl, -⟩ := henc pad u
    rw [hb, hl]
    rfl

/-- No mode is longer than three bytes (R61). -/
theorem mode_length_le (m : Mode) : m.length ≤ 3 := by cases m <;> decide

/-- A step at an instruction's encoding, whatever the padding byte, runs that instruction with `PC` past the fetched bytes. -/
theorem step_of_bytesAt {s : State} {i : Instr} {pad : Byte} (h : s.bytesAt s.pc i.length = encodeWith pad i) :
    step s = exec i (s.setPc (s.pc + BitVec.ofNat 16 i.fetched)) := by
  have hrow := rowOf_opcodeOf i
  have henc := pattern_encodes (opcodeOf i)
  have hstep := step_eq s
  generalize opcodeOf i = op at hrow henc
  generalize hp : pattern op = p at hrow henc
  cases hrow with
  | op | opPad =>
    obtain ⟨hb, hl, hf⟩ := henc pad
    rw [hb, hl] at h
    have hop : s.memRead s.pc = op := (List.cons.inj h).1
    rw [hop, hp] at hstep
    rw [hstep, hf]
    rfl
  | opB f b =>
    obtain ⟨hb, hl, hf⟩ := henc pad b
    rw [hb, hl] at h
    simp only [State.bytesAt, List.cons.injEq, and_true] at h
    obtain ⟨hop, hoperand⟩ := h
    rw [hop, hp, hoperand] at hstep
    rw [hstep, hf]
    rfl
  | opW f w =>
    obtain ⟨hb, hl, hf⟩ := henc pad w
    rw [hb, hl, s.bytesAt_three] at h
    simp only [List.cons.injEq, and_true] at h
    obtain ⟨hop, hlo, hhi⟩ := h
    rw [hop, hp, hlo, hhi, mkWord_lo_hi] at hstep
    rw [hstep, hf]
    rfl

/-- Storing bytes changes no byte outside them, the addresses counted modulo 65536 from the first. -/
theorem State.storeBytes_memRead_outside (s : State) (a addr : Word) (bs : List Byte) (h : bs.length ≤ (addr - a).toNat) :
    (s.storeBytes a bs).memRead addr = s.memRead addr := by
  induction bs generalizing s a with
  | nil => rfl
  | cons b bs ih =>
    have hlen : bs.length + 1 ≤ (addr - a).toNat := h
    have hne : addr ≠ a := by rintro rfl; simp at hlen
    rw [State.storeBytes, ih _ _ (by bv_omega), State.memWrite_memRead, if_neg hne]

/-- The bytes stored at an address are there, when they are no more than the addresses there are. -/
theorem State.bytesAt_storeBytes (s : State) (a : Word) (bs : List Byte) (h : bs.length ≤ 65536) :
    (s.storeBytes a bs).bytesAt a bs.length = bs := by
  induction bs generalizing s a with
  | nil => rfl
  | cons b bs ih =>
    have hlen : bs.length + 1 ≤ 65536 := h
    have hfirst : (s.storeBytes a (b :: bs)).memRead a = b := by
      rw [State.storeBytes, State.storeBytes_memRead_outside _ _ _ _ (by bv_omega), State.memWrite_memRead, if_pos rfl]
    calc (s.storeBytes a (b :: bs)).bytesAt a (b :: bs).length
        = (s.storeBytes a (b :: bs)).memRead a :: ((s.memWrite a b).storeBytes (a + 1) bs).bytesAt (a + 1) bs.length := rfl
      _ = b :: bs := by rw [hfirst, ih _ _ (by omega)]

/-- Settles O16: the stored bytes are the ones at `PC`, and a step at an instruction's encoding runs it. -/
theorem storedInstructionIsRun : Obligations.StoredInstructionIsRun := by
  intro s i pad
  have hlen := encodeWith_length pad i
  have hfits : (encodeWith pad i).length ≤ 65536 := by
    rw [hlen]
    exact (mode_length_le i.asm.mode).trans (by decide)
  have hat : (s.storeBytes s.pc (encodeWith pad i)).bytesAt (s.storeBytes s.pc (encodeWith pad i)).pc i.length = encodeWith pad i := by
    rw [State.storeBytes_pc, ← hlen]
    exact s.bytesAt_storeBytes s.pc _ hfits
  rw [step_of_bytesAt hat, State.storeBytes_pc]

end Sys2Proof.Machine
end

section
/-! SUPPORT. The statements about the encoding (spec/30_encoding.md): what the decoder reads is said once, row by row of the opcode
map, and the two round trips are read off it and the rows' agreement with the encoder. -/

namespace Sys2Proof.Machine

/-- What the decoder reads under a row of the opcode map: the bytes after the opcode, the instruction they complete, and the bytes
left over. The padding byte of `BRK` is dropped, also where the list ends before it (R61, R63, R190). -/
inductive Completes : Pattern → List Byte → Instr → List Byte → Prop
  | op (i : Instr) (rest : List Byte) : Completes (.op i) rest i rest
  | opPad (i : Instr) (bs : List Byte) : Completes (.opPad i) bs i (bs.drop 1)
  | opB (f : Byte → Instr) (b : Byte) (rest : List Byte) : Completes (.opB f) (b :: rest) (f b) rest
  | opW (f : Word → Instr) (lo hi : Byte) (rest : List Byte) : Completes (.opW f) (lo :: hi :: rest) (f (mkWord lo hi)) rest

/-- A list decodes to an instruction exactly when the bytes after its opcode complete the opcode's row (R65). -/
theorem decode_cons_iff {op : Byte} {bs rest : List Byte} {i : Instr} :
    decode (op :: bs) = .instr i rest ↔ Completes (pattern op) bs i rest := by
  rw [decode]
  constructor
  · intro h
    cases hp : pattern op with
    | unmapped => rw [hp] at h; cases h
    | op j => rw [hp] at h; cases h; exact .op _ _
    | opPad j => rw [hp] at h; cases h; exact .opPad _ _
    | opB f =>
      rw [hp] at h
      match bs, h with
      | b :: _, rfl => exact .opB f b _
    | opW f =>
      rw [hp] at h
      match bs, h with
      | lo :: hi :: _, rfl => exact .opW f lo hi _
  · intro h
    generalize pattern op = p at h
    cases h <;> rfl

/-- Settles O13: an encoding is its row's opcode followed by the bytes that complete the row. -/
theorem decodeInvertsEncode : Obligations.DecodeInvertsEncode := by
  intro i pad rest _
  have hrow := rowOf_opcodeOf i
  have henc := pattern_encodes (opcodeOf i)
  have hdec := @decode_cons_iff (opcodeOf i)
  generalize opcodeOf i = op at hrow henc hdec
  generalize pattern op = p at hrow henc hdec
  cases hrow with
  | op =>
    obtain ⟨hb, -⟩ := henc pad
    rw [hb]
    exact hdec.2 (.op i rest)
  | opPad =>
    obtain ⟨hb, -⟩ := henc pad
    rw [hb]
    exact hdec.2 (.opPad i (pad :: rest))
  | opB f b =>
    obtain ⟨hb, -⟩ := henc pad b
    rw [hb]
    exact hdec.2 (.opB f b rest)
  | opW f w =>
    obtain ⟨hb, -⟩ := henc pad w
    have h := hdec.2 (.opW f (loByte w) (hiByte w) rest)
    rw [mkWord_lo_hi] at h
    rw [hb]
    exact h

/-- Settles O14: the bytes that complete a row are the ones its encoding has after the opcode; the length gives `BRK` its padding
byte. -/
theorem encodeInvertsDecode : Obligations.EncodeInvertsDecode := by
  intro bs i rest hdec hlen
  cases bs with
  | nil => cases hdec
  | cons op bs =>
    have henc := pattern_encodes op
    have hrow := decode_cons_iff.1 hdec
    generalize pattern op = p at henc hrow
    cases hrow with
    | op =>
      obtain ⟨hb, -⟩ := henc 0
      exact ⟨0, by rw [hb]; rfl⟩
    | opPad =>
      cases bs with
      | nil =>
        obtain ⟨-, hl, -⟩ := henc 0
        rw [hl] at hlen
        exact absurd hlen (by simp)
      | cons pad rest =>
        obtain ⟨hb, -⟩ := henc pad
        exact ⟨pad, by rw [hb]; rfl⟩
    | opB f b =>
      obtain ⟨hb, -⟩ := henc 0 b
      exact ⟨0, by rw [hb]; rfl⟩
    | opW f lo hi =>
      obtain ⟨hb, -⟩ := henc 0 (mkWord lo hi)
      exact ⟨0, by rw [hb, loByte_mkWord, hiByte_mkWord]; rfl⟩

/-- Settles O15: each list is fixed, and the decoder computes on it. -/
theorem writtenWordsDecode : Obligations.WrittenWordsDecode := by
  unfold Obligations.WrittenWordsDecode
  decide

end Sys2Proof.Machine
end

section
/-! SUPPORT. The statements about a step as a whole (R80, R81): what a step can do is said once, and each is read off it. -/

namespace Sys2Proof.Machine

/-- A step has two cases: the bytes at `PC` decode to an instruction and the step executes it with `PC` past the fetched bytes, or the
byte at `PC` is unmapped and the step halts with it, `PC` one past it (R80, R81, R220). -/
theorem step_cases (s : State) :
    (s.memRead s.pc ∉ unmappedOpcodes ∧ ∃ i rest, decode (s.bytesAt s.pc 3) = .instr i rest ∧
      step s = exec i (s.setPc (s.pc + BitVec.ofNat 16 i.fetched))) ∨
    (s.memRead s.pc ∈ unmappedOpcodes ∧ decode (s.bytesAt s.pc 3) = .unmapped (s.memRead s.pc) ∧
      step s = .fault (.unknownOpcode (s.memRead s.pc) (s.setPc (s.pc + 1)))) := by
  have henc := pattern_encodes (s.memRead s.pc)
  rw [← pattern_unmapped_iff, step_eq, s.bytesAt_three, decode_three]
  cases hp : pattern (s.memRead s.pc) with
  | op i | opPad i =>
    rw [hp] at henc
    obtain ⟨-, -, hf⟩ := henc 0
    exact .inl ⟨nofun, i, _, rfl, by rw [hf]; rfl⟩
  | opB form | opW form =>
    rw [hp] at henc
    obtain ⟨-, -, hf⟩ := henc 0 _
    exact .inl ⟨nofun, _, _, rfl, by rw [hf]; rfl⟩
  | unmapped => exact .inr ⟨rfl, rfl, rfl⟩

/-- Settles O11: a mapped byte runs an instruction, and every instruction goes on by its meaning. -/
theorem stepHasTwoOutcomes : Obligations.StepHasTwoOutcomes := by
  intro s
  obtain ⟨hop, i, -, -, hstep⟩ | ⟨hop, -, hstep⟩ := step_cases s
  · obtain ⟨F, hF, -⟩ := exec_meaning i
    exact .inl ⟨hop, _, hstep.trans (hF _)⟩
  · exact .inr ⟨hop, _, hstep⟩

/-- Settles O9: the decoder's answer picks the case of the step, and in neither case is it `truncated`. -/
theorem stepRunsDecodedInstruction : Obligations.StepRunsDecodedInstruction := by
  intro s
  obtain ⟨-, i, rest, hdec, hstep⟩ | ⟨-, hdec, hstep⟩ := step_cases s
  · rw [hdec]
    refine ⟨fun j _ h => ?_, nofun, nofun⟩
    cases h
    exact hstep
  · rw [hdec]
    refine ⟨nofun, fun op h => ?_, nofun⟩
    cases h
    exact ⟨rfl, hstep⟩

end Sys2Proof.Machine
end

section
/-! SUPPORT. The statements about ADC and SBC (spec/41_arithmetic.md): what a row of the two operations runs is said once, and the sum
and the difference are compared as numbers. -/

namespace Sys2Proof.Machine

/-! ## The rows of the two operations (R66, R100, R101). -/

/-- A row of `ADC` has its opcode byte and runs the operation of `ADC` on its operand value. -/
theorem adcForms_run {b : Byte} {w : Word} {op : Byte} {i : Instr} {src : Source} (h : (op, i, src) ∈ adcForms b w) :
    (encode i).head? = some op ∧ i.asm.mnemonic = .adc ∧ ∀ s, exec i s = .next (s.adc (s.operandValue src)) := by
  simp only [adcForms, List.mem_cons, Prod.mk.injEq, List.not_mem_nil, or_false] at h
  obtain ⟨rfl, rfl, rfl⟩ | ⟨rfl, rfl, rfl⟩ | ⟨rfl, rfl, rfl⟩ | ⟨rfl, rfl, rfl⟩ | ⟨rfl, rfl, rfl⟩ | ⟨rfl, rfl, rfl⟩ |
    ⟨rfl, rfl, rfl⟩ | ⟨rfl, rfl, rfl⟩ := h <;> exact ⟨rfl, rfl, fun _ => rfl⟩

/-- A row of `SBC` has its opcode byte and runs the operation of `SBC` on its operand value. -/
theorem sbcForms_run {b : Byte} {w : Word} {op : Byte} {i : Instr} {src : Source} (h : (op, i, src) ∈ sbcForms b w) :
    (encode i).head? = some op ∧ i.asm.mnemonic = .sbc ∧ ∀ s, exec i s = .next (s.sbc (s.operandValue src)) := by
  simp only [sbcForms, List.mem_cons, Prod.mk.injEq, List.not_mem_nil, or_false] at h
  obtain ⟨rfl, rfl, rfl⟩ | ⟨rfl, rfl, rfl⟩ | ⟨rfl, rfl, rfl⟩ | ⟨rfl, rfl, rfl⟩ | ⟨rfl, rfl, rfl⟩ | ⟨rfl, rfl, rfl⟩ |
    ⟨rfl, rfl, rfl⟩ | ⟨rfl, rfl, rfl⟩ := h <;> exact ⟨rfl, rfl, fun _ => rfl⟩

/-- A step at the bytes of an instruction that is no control transfer goes on, `PC` advanced by its length (R22, R23). -/
theorem step_at_encoding {s : State} {i : Instr} (h : s.bytesAt s.pc i.length = encode i) (hi : i.asm.mnemonic ∉ pcWriters) :
    ∃ t, step s = .next t ∧ t.pc = s.pc + BitVec.ofNat 16 i.length := by
  obtain ⟨F, hF, hm⟩ := exec_meaning i
  refine ⟨_, (step_of_bytesAt h).trans (hF _), ?_⟩
  rw [hm.pc_eq hi, State.setPc_pc, fetched_eq_length hi]

/-! ## The flags and the values in numbers (R100, R101). -/

theorem adcOverflow_eq_true_iff (a m r : Byte) :
    adcOverflow a m r = true ↔ a.getLsbD 7 = m.getLsbD 7 ∧ r.getLsbD 7 ≠ a.getLsbD 7 := by
  rw [adcOverflow, Bool.and_eq_true, beq_iff_eq, bne_iff_ne]

theorem sbcOverflow_eq_true_iff (a m r : Byte) :
    sbcOverflow a m r = true ↔ a.getLsbD 7 ≠ m.getLsbD 7 ∧ r.getLsbD 7 ≠ a.getLsbD 7 := by
  rw [sbcOverflow, Bool.and_eq_true, bne_iff_ne, bne_iff_ne]

theorem adcValue_toNat (a m : Byte) (c : Bool) : (adcValue a m c).toNat = adcSum a m c % 256 := BitVec.toNat_ofNat ..

theorem sbcValue_toNat (a m : Byte) (c : Bool) : ((sbcValue a m c).toNat : Int) = sbcDiff a m c % 256 := by
  rw [sbcValue, BitVec.toNat_ofInt]
  exact Int.toNat_of_nonneg (Int.emod_nonneg _ (by decide))

/-- Settles O18: a row of `ADC` runs the operation of `ADC`, whose result and flags are those of the sum. -/
theorem adcAddsWithCarry : Obligations.AdcAddsWithCarry := by
  intro b w s op i src h
  obtain ⟨hop, hmn, hexec⟩ := adcForms_run h
  refine ⟨hop, ⟨_, hexec s, adcValue_toNat .., ?_, ?_, s.adc_nz _, rfl, s.adc_frame _⟩, fun hat => ?_⟩
  · rw [State.adc_flag]; rfl
  · rw [State.adc_flag]; exact adcOverflow_eq_true_iff ..
  · exact step_at_encoding hat (by rw [hmn]; decide)

/-- Settles O19: a row of `SBC` runs the operation of `SBC`, whose result and flags are those of the difference. -/
theorem sbcSubtractsWithBorrow : Obligations.SbcSubtractsWithBorrow := by
  intro b w s op i src h
  obtain ⟨hop, -, hexec⟩ := sbcForms_run h
  refine ⟨hop, _, hexec s, sbcValue_toNat .., ?_, ?_, s.sbc_nz _, rfl, s.sbc_frame _⟩
  · rw [State.sbc_flag]; rfl
  · rw [State.sbc_flag]; exact sbcOverflow_eq_true_iff ..

/-! ## The Decimal flag (R102). -/

/-- A state that agrees with another but for one flag is the other with that flag written. -/
theorem AgreeBut.eq_setFlag {f : Flag} {s t : State} (h : AgreeBut f s t) : t = s.setFlag f (t.flag f) := by
  refine State.ext_flags h.a h.x h.y h.sp h.pc h.mem fun g => ?_
  rw [State.setFlag_flag]
  by_cases hg : g = f
  · rw [if_pos hg, hg]
  · rw [if_neg hg, h.flags g hg]

/-- Settles O20: D is inert for the two operations (O52), and neither of them writes it (O46). -/
theorem decimalFlagChangesNoArithmetic : Obligations.DecimalFlagChangesNoArithmetic := by
  intro b w s d op i src h
  have hmn : i.asm.mnemonic ∈ [Mnemonic.adc, .sbc] := by
    obtain h | h := List.mem_append.1 h
    · obtain ⟨-, hmn, -⟩ := adcForms_run h
      rw [hmn]; decide
    · obtain ⟨-, hmn, -⟩ := sbcForms_run h
      rw [hmn]; decide
  have hphp : i ≠ .php := by rintro rfl; exact absurd hmn (by decide)
  have hbrk : i ≠ .brk := by rintro rfl; exact absurd hmn (by decide)
  have hnot : i.asm.mnemonic ∉ Flag.d.writers :=
    (by decide : ∀ mn ∈ [Mnemonic.adc, .sbc], mn ∉ Flag.d.writers) _ hmn
  obtain ⟨t, u, ht, hu, hagree⟩ :=
    unusedBreakDecimalInterruptFlagsAreInert i s .d d (by decide) (absurd · hphp) (absurd · hbrk)
  have hd : u.flag .d = d := by rw [onlyWritersChangeAFlag i _ u .d hu hnot, State.setFlag_flag, if_pos rfl]
  exact ⟨t, ht, by rw [hu, hagree.eq_setFlag, hd]⟩

/-! ## `ADC` with its operands exchanged, and `SBC` as `ADC` of the complement (R103). -/

theorem adcSum_comm (a m : Byte) (c : Bool) : adcSum a m c = adcSum m a c := by
  rw [adcSum, adcSum, Nat.add_comm a.toNat]

theorem adcValue_comm (a m : Byte) (c : Bool) : adcValue a m c = adcValue m a c := by
  rw [adcValue, adcValue, adcSum_comm]

theorem adcCarry_comm (a m : Byte) (c : Bool) : adcCarry a m c = adcCarry m a c := by
  rw [adcCarry, adcCarry, adcSum_comm]

/-- Overflow needs equal signs, so it may compare the result's sign with either operand's. -/
theorem adcOverflow_comm (a m r : Byte) : adcOverflow a m r = adcOverflow m a r := by
  rw [Bool.eq_iff_iff, adcOverflow_eq_true_iff, adcOverflow_eq_true_iff, eq_comm]
  exact and_congr_right fun hsign => by rw [hsign]

/-- Adding to an accumulator of `a` the value `m` is adding to one of `m` the value `a` (R103 (a)). -/
theorem State.setA_adc_comm (s : State) (a m : Byte) : (s.setA a).adc m = (s.setA m).adc a := by
  simp only [State.adc, State.setA_a, State.setA_flag, adcValue_comm a m, adcCarry_comm a m, adcOverflow_comm a m]
  rfl

/-- The complement of `m` is 255 minus `m`, so the sum is the difference plus 256. -/
theorem adcSum_not (a m : Byte) (c : Bool) : (adcSum a (~~~m) c : Int) = sbcDiff a m c + 256 := by
  have hm := m.isLt
  rw [adcSum, sbcDiff, BitVec.toNat_not]
  omega

theorem sbcValue_eq_adcValue_not (a m : Byte) (c : Bool) : sbcValue a m c = adcValue a (~~~m) c := by
  apply BitVec.eq_of_toNat_eq
  zify
  rw [sbcValue_toNat, adcValue_toNat, Int.natCast_mod, adcSum_not]
  exact (Int.add_emod_right ..).symm

theorem sbcCarry_eq_adcCarry_not (a m : Byte) (c : Bool) : sbcCarry a m c = adcCarry a (~~~m) c := by
  have hsum := adcSum_not a m c
  rw [sbcCarry, adcCarry, decide_eq_decide]
  omega

/-- The signs of `a` and `m` differ when those of `a` and the complement of `m` agree. -/
theorem sbcOverflow_eq_adcOverflow_not (a m r : Byte) : sbcOverflow a m r = adcOverflow a (~~~m) r := by
  have hsign : (~~~m).getLsbD 7 = !m.getLsbD 7 := BitVec.getLsbD_not ..
  rw [Bool.eq_iff_iff, sbcOverflow_eq_true_iff, adcOverflow_eq_true_iff, hsign, Bool.eq_not]

/-- Subtracting `m` is adding its complement (R103 (b)). -/
theorem State.sbc_eq_adc_not (s : State) (m : Byte) : s.sbc m = s.adc (~~~m) := by
  simp only [State.sbc, State.adc, sbcValue_eq_adcValue_not, sbcCarry_eq_adcCarry_not, sbcOverflow_eq_adcOverflow_not]

/-- Settles O21: an immediate form runs its operation on its byte. -/
theorem adcCommutesAndSbcIsAdcOfComplement : Obligations.AdcCommutesAndSbcIsAdcOfComplement := fun s a m =>
  ⟨congrArg Host.Outcome.next (s.setA_adc_comm a m), congrArg Host.Outcome.next (s.sbc_eq_adc_not m)⟩

end Sys2Proof.Machine
end

section
/-! SUPPORT. The statement about AND, ORA and EOR (spec/42_logic.md): what the rows of each run is said once, and the three operations
are one load of the accumulator with the combined value. -/

namespace Sys2Proof.Machine

/-- A row of R66 has its opcode byte, and its instruction runs `run` on the row's operand value. -/
structure RowRuns (run : State → Byte → State) (row : Byte × Instr × Source) : Prop where
  opcode : (encode row.2.1).head? = some row.1
  exec_eq : ∀ s, exec row.2.1 s = .next (run s (s.operandValue row.2.2))

theorem andForms_run (b : Byte) (w : Word) : ∀ row ∈ andForms b w, RowRuns State.andA row := by
  simp only [andForms, List.forall_mem_cons]
  refine ⟨?imm, ?zp, ?zpx, ?abs, ?absx, ?absy, ?indx, ?indy, fun _ h => nomatch h⟩ <;> exact ⟨rfl, fun _ => rfl⟩

theorem oraForms_run (b : Byte) (w : Word) : ∀ row ∈ oraForms b w, RowRuns State.oraA row := by
  simp only [oraForms, List.forall_mem_cons]
  refine ⟨?imm, ?zp, ?zpx, ?abs, ?absx, ?absy, ?indx, ?indy, fun _ h => nomatch h⟩ <;> exact ⟨rfl, fun _ => rfl⟩

theorem eorForms_run (b : Byte) (w : Word) : ∀ row ∈ eorForms b w, RowRuns State.eorA row := by
  simp only [eorForms, List.forall_mem_cons]
  refine ⟨?imm, ?zp, ?zpx, ?abs, ?absx, ?absy, ?indx, ?indy, fun _ h => nomatch h⟩ <;> exact ⟨rfl, fun _ => rfl⟩

/-- A row that loads the accumulator with a combination of it and the operand changes A, N and Z only, N and Z by the new A. -/
theorem RowRuns.combines_a {f : Byte → Byte → Byte} {op : Byte} {i : Instr} {src : Source}
    (h : RowRuns (fun s m => s.loadA (f s.a m)) (op, i, src)) (s : State) :
    (encode i).head? = some op ∧
      ∃ t, exec i s = .next t ∧ t.a = f s.a (s.operandValue src) ∧ SetsNZ t.a t ∧ t.pc = s.pc ∧ Frame [.a] [.n, .z] [] s t :=
  ⟨h.opcode, _, h.exec_eq s, s.loadA_a _, s.loadA_nz _, s.loadA_pc _, s.loadA_frame _⟩

/-- Settles O22: each row loads the accumulator with the bitwise combination of its operation. -/
theorem logicWritesAccumulator : Obligations.LogicWritesAccumulator := fun b w s _ _ _ =>
  ⟨fun h => (andForms_run b w _ h).combines_a (f := (· &&& ·)) s,
   fun h => (oraForms_run b w _ h).combines_a (f := (· ||| ·)) s,
   fun h => (eorForms_run b w _ h).combines_a (f := (· ^^^ ·)) s⟩

end Sys2Proof.Machine
end

section
/-! SUPPORT. The statements about the shifts and the rotates (spec/43_shift_rotate.md): what a row of each runs is said once, a shifted
byte is written bit by bit, and a rotate is a rotation of the nine bits that the carry and the location make together. -/

namespace Sys2Proof.Machine

/-! ## The rows of the four operations (R66, R120 to R123). -/

/-- A row of R66 has its opcode byte, and its instruction runs `run` on the row's location from `s`. -/
structure RowRunsOn (run : State → Location → State) (s : State) (row : Byte × Instr × Location) : Prop where
  opcode : (encode row.2.1).head? = some row.1
  exec_eq : exec row.2.1 s = .next (run s row.2.2)

theorem aslForms_run (b : Byte) (w : Word) (s : State) : ∀ row ∈ aslForms b w s, RowRunsOn State.asl s row := by
  simp only [aslForms, List.forall_mem_cons]
  refine ⟨?acc, ?zp, ?zpx, ?abs, ?absx, fun _ h => nomatch h⟩ <;> exact ⟨rfl, rfl⟩

theorem lsrForms_run (b : Byte) (w : Word) (s : State) : ∀ row ∈ lsrForms b w s, RowRunsOn State.lsr s row := by
  simp only [lsrForms, List.forall_mem_cons]
  refine ⟨?acc, ?zp, ?zpx, ?abs, ?absx, fun _ h => nomatch h⟩ <;> exact ⟨rfl, rfl⟩

theorem rolForms_run (b : Byte) (w : Word) (s : State) : ∀ row ∈ rolForms b w s, RowRunsOn State.rol s row := by
  simp only [rolForms, List.forall_mem_cons]
  refine ⟨?acc, ?zp, ?zpx, ?abs, ?absx, fun _ h => nomatch h⟩ <;> exact ⟨rfl, rfl⟩

theorem rorForms_run (b : Byte) (w : Word) (s : State) : ∀ row ∈ rorForms b w s, RowRunsOn State.ror s row := by
  simp only [rorForms, List.forall_mem_cons]
  refine ⟨?acc, ?zp, ?zpx, ?abs, ?absx, fun _ h => nomatch h⟩ <;> exact ⟨rfl, rfl⟩

/-- A row that shifts its location to `r` with the carry `c` changes the location, C, N and Z only, N and Z by the value written. -/
theorem RowRunsOn.shifts {run : State → Location → State} {s : State} {op : Byte} {i : Instr} {loc : Location} {c : Bool} {r : Byte}
    {n : Nat} (h : RowRunsOn run s (op, i, loc)) (hrun : run s loc = s.shiftTo loc c r) (hn : r.toNat = n) :
    (encode i).head? = some op ∧
      ∃ t, exec i s = .next t ∧ (t.locationRead loc).toNat = n ∧ t.flag .c = c ∧ SetsNZ (t.locationRead loc) t ∧ t.pc = s.pc ∧
        Frame loc.regs [.n, .z, .c] loc.addrs s t := by
  have hread : (s.shiftTo loc c r).locationRead loc = r := s.shiftTo_locationRead ..
  refine ⟨h.opcode, _, h.exec_eq.trans (congrArg _ hrun), ?_, ?_, ?_, s.shiftTo_pc .., s.shiftTo_frame ..⟩
  · rw [hread, hn]
  · rw [State.shiftTo_flag]; rfl
  · rw [hread]; exact s.shiftTo_nz ..

/-! ## The values, bit by bit and in numbers. -/

/-- A left rotate drops bit 7 and puts the old carry below the others (R122). -/
theorem rolValue_eq_concat (v : Byte) (c : Bool) : rolValue v c = (v.setWidth 7).concat c := by
  ext k hk
  cases c <;> interval_cases k <;> simp [rolValue, BitVec.getElem_concat]

/-- A right rotate drops bit 0 and puts the old carry above the others (R123). -/
theorem rorValue_eq_cons (v : Byte) (c : Bool) : rorValue v c = (v.extractLsb' 1 7).cons c := by
  ext k hk
  cases c <;> interval_cases k <;> simp [rorValue, BitVec.getElem_cons]

theorem aslValue_toNat (v : Byte) : (aslValue v).toNat = 2 * v.toNat % 256 := by
  rw [aslValue, BitVec.toNat_shiftLeft, Nat.shiftLeft_eq, pow_one, Nat.mul_comm]

theorem lsrValue_toNat (v : Byte) : (lsrValue v).toNat = v.toNat / 2 := by
  rw [lsrValue, BitVec.toNat_ushiftRight, Nat.shiftRight_eq_div_pow, pow_one]

theorem rolValue_toNat (v : Byte) (c : Bool) : (rolValue v c).toNat = (2 * v.toNat + c.toNat) % 256 := by
  have hc := c.toNat_le
  rw [rolValue_eq_concat, BitVec.toNat_concat, BitVec.toNat_setWidth]
  omega

theorem rorValue_toNat (v : Byte) (c : Bool) : (rorValue v c).toNat = v.toNat / 2 + 128 * c.toNat := by
  have hv := v.isLt
  rw [rorValue_eq_cons, BitVec.toNat_cons', BitVec.extractLsb'_toNat, Nat.shiftLeft_eq, Nat.shiftRight_eq_div_pow]
  omega

/-- Settles O23: each row shifts its location, and the value written is the double or the half in numbers. -/
theorem shiftsMoveOneBit : Obligations.ShiftsMoveOneBit := fun b w s _ _ _ =>
  ⟨fun h => (aslForms_run b w s _ h).shifts rfl (aslValue_toNat _),
   fun h => (lsrForms_run b w s _ h).shifts rfl (lsrValue_toNat _)⟩

/-- Settles O24: each row shifts its location, and the value written has the old carry in the vacated bit. -/
theorem rotatesGoThroughCarry : Obligations.RotatesGoThroughCarry := fun b w s _ _ _ =>
  ⟨fun h => (rolForms_run b w s _ h).shifts rfl (rolValue_toNat _ _),
   fun h => (rorForms_run b w s _ h).shifts rfl (rorValue_toNat _ _)⟩

/-! ## The nine bits that a rotate moves. -/

/-- The carry above the eight bits of a location: what `ROL` and `ROR` rotate (R122). -/
def State.ring (s : State) (loc : Location) : BitVec 9 := (s.locationRead loc).cons (s.flag .c)

theorem State.ring_eq_iff {s t : State} {loc : Location} :
    t.ring loc = s.ring loc ↔ t.locationRead loc = s.locationRead loc ∧ t.flag .c = s.flag .c := by
  refine ⟨fun h => ?_, fun ⟨hv, hc⟩ => by rw [ring, ring, hv, hc]⟩
  have hv := congrArg (BitVec.setWidth 8) h
  have hc := congrArg BitVec.msb h
  rw [ring, ring, BitVec.setWidth_cons, BitVec.setWidth_cons] at hv
  rw [ring, ring, BitVec.msb_cons, BitVec.msb_cons] at hc
  exact ⟨hv, hc⟩

theorem State.ring_shiftTo (s : State) (loc : Location) (c : Bool) (r : Byte) : (s.shiftTo loc c r).ring loc = r.cons c := by
  rw [ring, shiftTo_locationRead, shiftTo_flag]; rfl

/-- `ROL` rotates the nine bits left. -/
theorem State.ring_rol (s : State) (loc : Location) : (s.rol loc).ring loc = (s.ring loc).rotateLeft 1 := by
  rw [rol, ring_shiftTo, rolValue_eq_concat, ring]
  ext k hk
  interval_cases k <;> simp [BitVec.getElem_cons, BitVec.getElem_concat, BitVec.getElem_rotateLeft]

/-- `ROR` rotates the nine bits right. -/
theorem State.ring_ror (s : State) (loc : Location) : (s.ror loc).ring loc = (s.ring loc).rotateRight 1 := by
  rw [ror, ring_shiftTo, rorValue_eq_cons, ring]
  ext k hk
  interval_cases k <;> simp [BitVec.getElem_cons, BitVec.getElem_rotateRight]

theorem rotateRight_leftInverse_rotateLeft :
    Function.LeftInverse (BitVec.rotateRight · 1 : BitVec 9 → BitVec 9) (BitVec.rotateLeft · 1) := by
  intro x
  ext k hk
  interval_cases k <;> simp [BitVec.getElem_rotateLeft, BitVec.getElem_rotateRight]

theorem rotateLeft_iterate_nine (x : BitVec 9) : (BitVec.rotateLeft · 1)^[9] x = x := by
  ext k hk
  interval_cases k <;> simp [BitVec.getElem_rotateLeft]

theorem rotateRight_iterate_nine (x : BitVec 9) : (BitVec.rotateRight · 1)^[9] x = x := by
  have hinv := rotateRight_leftInverse_rotateLeft.iterate 9 x
  rwa [rotateLeft_iterate_nine] at hinv

theorem State.ring_ror_rol (s : State) (loc : Location) : ((s.rol loc).ror loc).ring loc = s.ring loc := by
  rw [ring_ror, ring_rol]
  exact rotateRight_leftInverse_rotateLeft _

theorem State.ring_rol_iterate_nine (s : State) (loc : Location) : ((fun u => u.rol loc)^[9] s).ring loc = s.ring loc := by
  have hturn : Function.Semiconj (State.ring · loc) (State.rol · loc) (BitVec.rotateLeft · 1) := (ring_rol · loc)
  exact (hturn.iterate_right 9 s).trans (rotateLeft_iterate_nine _)

theorem State.ring_ror_iterate_nine (s : State) (loc : Location) : ((fun u => u.ror loc)^[9] s).ring loc = s.ring loc := by
  have hturn : Function.Semiconj (State.ring · loc) (State.ror · loc) (BitVec.rotateRight · 1) := (ring_ror · loc)
  exact (hturn.iterate_right 9 s).trans (rotateRight_iterate_nine _)

/-- Settles O25: the nine bits are back, and the two rotates write no other byte. -/
theorem rorUndoesRol : Obligations.RorUndoesRol := by
  intro s w
  obtain ⟨ha, hca⟩ := State.ring_eq_iff.1 (s.ring_ror_rol .acc)
  obtain ⟨hm, hcm⟩ := State.ring_eq_iff.1 (s.ring_ror_rol (.mem w))
  refine ⟨⟨_, _, rfl, rfl, ha, hca⟩, _, _, rfl, rfl, fun addr => ?_, hcm⟩
  by_cases haddr : addr = w
  · rw [haddr]; exact hm
  · have hne : addr ∉ (Location.mem w).addrs := List.not_mem_cons_of_ne_of_not_mem haddr List.not_mem_nil
    exact ((State.shiftTo_frame ..).mem addr hne).trans ((State.shiftTo_frame ..).mem addr hne)

/-- Settles O26: nine rotations of nine bits by one are a full turn. -/
theorem nineRotationsRestore : Obligations.NineRotationsRestore := by
  intro s loc
  obtain ⟨hl, hcl⟩ := State.ring_eq_iff.1 (s.ring_rol_iterate_nine loc)
  obtain ⟨hr, hcr⟩ := State.ring_eq_iff.1 (s.ring_ror_iterate_nine loc)
  exact ⟨hl, hcl, hr, hcr, fun _ => ⟨rfl, rfl, rfl, rfl⟩⟩

end Sys2Proof.Machine
end

section
/-! SUPPORT. The statements about CMP, CPX, CPY and BIT (spec/44_compare_bit.md): what the rows of each run is said once, and the three
compares are one operation on the register each of them reads. -/

namespace Sys2Proof.Machine

/-! ## The rows of the four operations (R66, R130 to R133). -/

theorem cmpForms_run (b : Byte) (w : Word) : ∀ row ∈ cmpForms b w, RowRuns State.cmpA row := by
  simp only [cmpForms, List.forall_mem_cons]
  refine ⟨?imm, ?zp, ?zpx, ?abs, ?absx, ?absy, ?indx, ?indy, fun _ h => nomatch h⟩ <;> exact ⟨rfl, fun _ => rfl⟩

theorem cpxForms_run (b : Byte) (w : Word) : ∀ row ∈ cpxForms b w, RowRuns State.cmpX row := by
  simp only [cpxForms, List.forall_mem_cons]
  refine ⟨?imm, ?zp, ?abs, fun _ h => nomatch h⟩ <;> exact ⟨rfl, fun _ => rfl⟩

theorem cpyForms_run (b : Byte) (w : Word) : ∀ row ∈ cpyForms b w, RowRuns State.cmpY row := by
  simp only [cpyForms, List.forall_mem_cons]
  refine ⟨?imm, ?zp, ?abs, fun _ h => nomatch h⟩ <;> exact ⟨rfl, fun _ => rfl⟩

theorem bitForms_run (b : Byte) (w : Word) : ∀ row ∈ bitForms b w, RowRuns State.bitTest row := by
  simp only [bitForms, List.forall_mem_cons]
  refine ⟨?zp, ?abs, fun _ h => nomatch h⟩ <;> exact ⟨rfl, fun _ => rfl⟩

/-! ## What a compare and a bit test leave. -/

/-- The carry of a compare is the unsigned comparison, whatever the difference (R130). -/
theorem State.compare_carry (s : State) (r m : Byte) : (s.compare r m).flag .c = decide (m.toNat ≤ r.toNat) := by
  rw [compare_flag]; rfl

theorem State.bitTest_negative (s : State) (m : Byte) : (s.bitTest m).flag .n = m.getLsbD 7 := by rw [bitTest_flag]; rfl

theorem State.bitTest_overflow (s : State) (m : Byte) : (s.bitTest m).flag .v = m.getLsbD 6 := by rw [bitTest_flag]; rfl

theorem State.bitTest_zero (s : State) (m : Byte) : (s.bitTest m).flag .z = (s.a &&& m == 0) := by rw [bitTest_flag]; rfl

/-- A row that compares the register read by `r` with its operand changes C, N and Z only. -/
theorem RowRuns.compares {r : State → Byte} {op : Byte} {i : Instr} {src : Source}
    (h : RowRuns (fun s m => s.compare (r s) m) (op, i, src)) (s : State) :
    (encode i).head? = some op ∧
      ∃ t, exec i s = .next t ∧ t.flag .c = decide ((s.operandValue src).toNat ≤ (r s).toNat) ∧
        SetsNZ (r s - s.operandValue src) t ∧ t.pc = s.pc ∧ Frame [] [.n, .z, .c] [] s t :=
  ⟨h.opcode, _, h.exec_eq s, s.compare_carry .., s.compare_nz .., s.compare_pc .., s.compare_frame ..⟩

/-- Settles O27: each row compares the register of its operation with its operand. -/
theorem comparesWriteFlagsOnly : Obligations.ComparesWriteFlagsOnly := fun b w s _ _ _ =>
  ⟨fun h => (cmpForms_run b w _ h).compares (r := State.a) s,
   fun h => (cpxForms_run b w _ h).compares (r := State.x) s,
   fun h => (cpyForms_run b w _ h).compares (r := State.y) s⟩

/-- Settles O28: each row tests its operand, which writes N, V and Z only. -/
theorem bitTestsOperand : Obligations.BitTestsOperand := by
  intro b w s op i src h
  have hrun := bitForms_run b w _ h
  exact ⟨hrun.opcode, _, hrun.exec_eq s, s.bitTest_negative _, s.bitTest_overflow _, s.bitTest_zero _, s.bitTest_pc _,
    s.bitTest_frame _⟩

end Sys2Proof.Machine
end

section
/-! SUPPORT. The statements about INC, DEC, INX, INY, DEX and DEY (spec/45_incdec.md): what the rows of the two memory operations run
is said once, and both write one byte of memory and set N and Z by it. -/

namespace Sys2Proof.Machine

/-! ## One more and one less, in numbers (R140, R141). -/

theorem byte_add_one_toNat (v : Byte) : (v + 1).toNat = (v.toNat + 1) % 256 := BitVec.toNat_add v 1

theorem byte_sub_one_toNat (v : Byte) : (v - 1).toNat = (v.toNat + 255) % 256 := by
  rw [BitVec.toNat_sub, Nat.add_comm]; rfl

/-! ## The rows of the two memory operations (R66, R140, R141): every location is a byte of memory. -/

theorem incForms_run (b : Byte) (w : Word) (s : State) :
    ∀ row ∈ incForms b w s, RowRunsOn State.inc s row ∧ ∃ a, row.2.2 = .mem a := by
  simp only [incForms, List.forall_mem_cons]
  refine ⟨?zp, ?zpx, ?abs, ?absx, fun _ h => nomatch h⟩ <;> exact ⟨⟨rfl, rfl⟩, _, rfl⟩

theorem decForms_run (b : Byte) (w : Word) (s : State) :
    ∀ row ∈ decForms b w s, RowRunsOn State.dec s row ∧ ∃ a, row.2.2 = .mem a := by
  simp only [decForms, List.forall_mem_cons]
  refine ⟨?zp, ?zpx, ?abs, ?absx, fun _ h => nomatch h⟩ <;> exact ⟨⟨rfl, rfl⟩, _, rfl⟩

/-- A row that writes `r` to its byte of memory and sets N and Z by `r` changes that byte, N and Z only. -/
theorem RowRunsOn.modifies {run : State → Location → State} {s : State} {op : Byte} {i : Instr} {loc : Location} {r : Byte} {n : Nat}
    (h : RowRunsOn run s (op, i, loc)) (hloc : ∃ a, loc = .mem a) (hrun : run s loc = (s.locationWrite loc r).setNZ r)
    (hn : r.toNat = n) :
    (encode i).head? = some op ∧
      ∃ t, exec i s = .next t ∧ (t.locationRead loc).toNat = n ∧ SetsNZ (t.locationRead loc) t ∧ t.pc = s.pc ∧
        Frame [] [.n, .z] loc.addrs s t := by
  obtain ⟨a, rfl⟩ := hloc
  have hread : ((s.locationWrite (.mem a) r).setNZ r).locationRead (.mem a) = r := by
    rw [State.setNZ_locationRead, State.locationRead_locationWrite]
  refine ⟨h.opcode, _, h.exec_eq.trans (congrArg _ hrun), ?_, ?_, rfl, s.locationWrite_frame a r⟩
  · rw [hread, hn]
  · rw [hread]; exact State.setNZ_nz ..

/-- Settles O29: each row writes the byte of its location, one more or one less. -/
theorem incDecMemoryWrap : Obligations.IncDecMemoryWrap := fun b w s _ _ _ =>
  ⟨fun h => have ⟨hrow, hloc⟩ := incForms_run b w s _ h; hrow.modifies hloc rfl (byte_add_one_toNat _),
   fun h => have ⟨hrow, hloc⟩ := decForms_run b w s _ h; hrow.modifies hloc rfl (byte_sub_one_toNat _)⟩

/-- Settles O30: each of the four loads its index register with one more or one less. -/
theorem incDecIndexWrap : Obligations.IncDecIndexWrap := fun s =>
  ⟨⟨rfl, _, rfl, byte_add_one_toNat s.x, s.loadX_nz _, rfl, s.loadX_frame _⟩,
   ⟨rfl, _, rfl, byte_add_one_toNat s.y, s.loadY_nz _, rfl, s.loadY_frame _⟩,
   ⟨rfl, _, rfl, byte_sub_one_toNat s.x, s.loadX_nz _, rfl, s.loadX_frame _⟩,
   ⟨rfl, _, rfl, byte_sub_one_toNat s.y, s.loadY_nz _, rfl, s.loadY_frame _⟩⟩

end Sys2Proof.Machine
end

section
/-! SUPPORT. The statements about the loads, the stores and the transfers (spec/46_load_store_transfer.md): what the rows of each load
and store run is said once, and a transfer into A, X or Y leaves what a load of that register leaves. -/

namespace Sys2Proof.Machine

/-! ## The rows of the loads and the stores (R66, R150 to R155). -/

theorem ldaForms_run (b : Byte) (w : Word) : ∀ row ∈ ldaForms b w, RowRuns State.loadA row := by
  simp only [ldaForms, List.forall_mem_cons]
  refine ⟨?imm, ?zp, ?zpx, ?abs, ?absx, ?absy, ?indx, ?indy, fun _ h => nomatch h⟩ <;> exact ⟨rfl, fun _ => rfl⟩

theorem ldxForms_run (b : Byte) (w : Word) : ∀ row ∈ ldxForms b w, RowRuns State.loadX row := by
  simp only [ldxForms, List.forall_mem_cons]
  refine ⟨?imm, ?zp, ?zpy, ?abs, ?absy, fun _ h => nomatch h⟩ <;> exact ⟨rfl, fun _ => rfl⟩

theorem ldyForms_run (b : Byte) (w : Word) : ∀ row ∈ ldyForms b w, RowRuns State.loadY row := by
  simp only [ldyForms, List.forall_mem_cons]
  refine ⟨?imm, ?zp, ?zpx, ?abs, ?absx, fun _ h => nomatch h⟩ <;> exact ⟨rfl, fun _ => rfl⟩

/-- The operation of a store: the register read by `r` is written to the location. -/
def State.store (r : State → Byte) (s : State) (loc : Location) : State := s.locationWrite loc (r s)

/-- A row of a store in R66, taken from `s`, where its memory operand is a location. -/
def rowFrom (s : State) (row : Byte × Instr × MemOperand) : Byte × Instr × Location := (row.1, row.2.1, s.location row.2.2)

theorem staForms_run (b : Byte) (w : Word) (s : State) :
    ∀ row ∈ staForms b w, RowRunsOn (State.store State.a) s (rowFrom s row) := by
  simp only [staForms, List.forall_mem_cons]
  refine ⟨?zp, ?zpx, ?abs, ?absx, ?absy, ?indx, ?indy, fun _ h => nomatch h⟩ <;> exact ⟨rfl, rfl⟩

theorem stxForms_run (b : Byte) (w : Word) (s : State) :
    ∀ row ∈ stxForms b w, RowRunsOn (State.store State.x) s (rowFrom s row) := by
  simp only [stxForms, List.forall_mem_cons]
  refine ⟨?zp, ?zpy, ?abs, fun _ h => nomatch h⟩ <;> exact ⟨rfl, rfl⟩

theorem styForms_run (b : Byte) (w : Word) (s : State) :
    ∀ row ∈ styForms b w, RowRunsOn (State.store State.y) s (rowFrom s row) := by
  simp only [styForms, List.forall_mem_cons]
  refine ⟨?zp, ?zpx, ?abs, fun _ h => nomatch h⟩ <;> exact ⟨rfl, rfl⟩

/-! ## What a load of each register leaves, whatever the value comes from. -/

theorem State.loadA_effect (s : State) (v : Byte) :
    (s.loadA v).a = v ∧ SetsNZ (s.loadA v).a (s.loadA v) ∧ (s.loadA v).pc = s.pc ∧ Frame [.a] [.n, .z] [] s (s.loadA v) :=
  ⟨s.loadA_a v, s.loadA_nz v, s.loadA_pc v, s.loadA_frame v⟩

theorem State.loadX_effect (s : State) (v : Byte) :
    (s.loadX v).x = v ∧ SetsNZ (s.loadX v).x (s.loadX v) ∧ (s.loadX v).pc = s.pc ∧ Frame [.x] [.n, .z] [] s (s.loadX v) :=
  ⟨s.loadX_x v, s.loadX_nz v, s.loadX_pc v, s.loadX_frame v⟩

theorem State.loadY_effect (s : State) (v : Byte) :
    (s.loadY v).y = v ∧ SetsNZ (s.loadY v).y (s.loadY v) ∧ (s.loadY v).pc = s.pc ∧ Frame [.y] [.n, .z] [] s (s.loadY v) :=
  ⟨s.loadY_y v, s.loadY_nz v, s.loadY_pc v, s.loadY_frame v⟩

/-- Settles O31: each row loads its register with its operand value. -/
theorem loadsSetRegisterAndNZ : Obligations.LoadsSetRegisterAndNZ := fun b w s _ _ _ =>
  ⟨fun h => have hrun := ldaForms_run b w _ h; ⟨hrun.opcode, _, hrun.exec_eq s, s.loadA_effect _⟩,
   fun h => have hrun := ldxForms_run b w _ h; ⟨hrun.opcode, _, hrun.exec_eq s, s.loadX_effect _⟩,
   fun h => have hrun := ldyForms_run b w _ h; ⟨hrun.opcode, _, hrun.exec_eq s, s.loadY_effect _⟩⟩

/-- A row that stores the register read by `r` writes the byte at its effective address and changes nothing else. -/
theorem RowRunsOn.stores {r : State → Byte} {s : State} {op : Byte} {i : Instr} {m : MemOperand}
    (h : RowRunsOn (State.store r) s (rowFrom s (op, i, m))) :
    (encode i).head? = some op ∧
      ∃ t, exec i s = .next t ∧ t.memRead (s.ea m) = r s ∧ t.pc = s.pc ∧ Frame [] [] [s.ea m] s t :=
  ⟨h.opcode, _, h.exec_eq, s.locationRead_locationWrite (s.location m) (r s), s.memWrite_pc .., s.memWrite_frame ..⟩

/-- Settles O32: each row stores its register at its effective address. -/
theorem storesWriteOneByte : Obligations.StoresWriteOneByte := fun b w s _ _ _ =>
  ⟨fun h => (staForms_run b w s _ h).stores, fun h => (stxForms_run b w s _ h).stores, fun h => (styForms_run b w s _ h).stores⟩

/-- Settles O33: five of the six load their destination with their source; `TXS` writes S and no flag. -/
theorem transfersCopy : Obligations.TransfersCopy := fun s =>
  ⟨⟨rfl, _, rfl, s.loadX_effect s.a⟩, ⟨rfl, _, rfl, s.loadA_effect s.x⟩, ⟨rfl, _, rfl, s.loadY_effect s.a⟩,
   ⟨rfl, _, rfl, s.loadA_effect s.y⟩, ⟨rfl, _, rfl, s.loadX_effect s.sp⟩,
   ⟨rfl, _, rfl, s.setSp_sp s.x, s.setSp_pc s.x, s.setSp_frame s.x⟩⟩

end Sys2Proof.Machine
end

section
/-! SUPPORT. The statements about the branches, JMP, JSR and RTS (spec/47_branch_jump.md): what the eight branches run is said once, and
a call and a return are a push and a pull of one 16-bit value. -/

namespace Sys2Proof.Machine

/-! ## The branches (R170 to R178). -/

/-- A signed displacement added to an address is added modulo 65536. -/
theorem add_sext16_toNat (w : Word) (d : Byte) : ((w + sext16 d).toNat : Int) = ((w.toNat : Int) + d.toInt) % 65536 := by
  have hd : ((sext16 d).toNat : Int) = d.toInt % 65536 := by
    rw [sext16, BitVec.signExtend, BitVec.toNat_ofInt]
    exact Int.toNat_of_nonneg (Int.emod_nonneg _ (by decide))
  calc ((w + sext16 d).toNat : Int)
      = ((w.toNat : Int) + (sext16 d).toNat) % 65536 := by rw [BitVec.toNat_add]; rfl
    _ = ((w.toNat : Int) + d.toInt) % 65536 := by rw [hd, Int.add_emod_emod]

/-- The rows of the eight branches in R66: opcode byte, instruction, and whether the branch is taken from `s`. -/
def branchForms (s : State) (d : Byte) : List (Byte × Instr × Bool) :=
  [(0x90, .bcc d, !s.flag .c), (0xB0, .bcs d, s.flag .c), (0xD0, .bne d, !s.flag .z), (0xF0, .beq d, s.flag .z),
   (0x10, .bpl d, !s.flag .n), (0x30, .bmi d, s.flag .n), (0x50, .bvc d, !s.flag .v), (0x70, .bvs d, s.flag .v)]

/-- A row of a branch is its opcode byte and the displacement, both of them fetched, and runs the branch from `s`. -/
structure RowBranches (s : State) (d : Byte) (row : Byte × Instr × Bool) : Prop where
  bytes : encode row.2.1 = [row.1, d]
  length_eq : row.2.1.length = 2
  fetched_eq : row.2.1.fetched = 2
  exec_eq : exec row.2.1 s = .next (s.branch row.2.2 d)

theorem branchForms_run (s : State) (d : Byte) : ∀ row ∈ branchForms s d, RowBranches s d row := by
  simp only [branchForms, List.forall_mem_cons]
  refine ⟨?bcc, ?bcs, ?bne, ?beq, ?bpl, ?bmi, ?bvc, ?bvs, fun _ h => nomatch h⟩ <;> exact ⟨rfl, rfl, rfl, rfl⟩

/-- A step at a branch's two bytes runs it with `PC` past them. -/
theorem RowBranches.step_eq {s u : State} {d op : Byte} {i : Instr} {taken : Bool} (h : RowBranches s d (op, i, taken))
    (hu : u.bytesAt u.pc 2 = [op, d]) : step u = exec i (u.setPc (u.pc + 2)) := by
  have hat : u.bytesAt u.pc i.length = encodeWith 0x00 i := by rw [h.length_eq, hu]; exact h.bytes.symm
  rw [step_of_bytesAt hat, h.fetched_eq]
  rfl

theorem State.branch_taken_pc (s : State) (d : Byte) :
    ((s.branch true d).pc.toNat : Int) = ((s.pc.toNat : Int) + d.toInt) % 65536 := by
  rw [branch_eq, setPc_pc, if_pos rfl, add_sext16_toNat]

/-- Settles O34: each row runs the one branch, which writes `PC` only. -/
theorem branchesAddDisplacement : Obligations.BranchesAddDisplacement := by
  intro s d op i taken h
  have hrow := branchForms_run s d _ h
  refine ⟨hrow.bytes, fun _ => hrow.step_eq, _, hrow.exec_eq, s.branch_frame taken d, ?taken, ?untaken⟩
  case taken => rintro rfl; exact s.branch_taken_pc d
  case untaken => rintro rfl; rfl

/-! ## The jumps (R180). -/

/-- Settles O35: both forms write `PC` and nothing else. -/
theorem jumpSetsPc : Obligations.JumpSetsPc := fun s w =>
  ⟨⟨rfl, _, rfl, s.setPc_pc w, s.setPc_frame w⟩, ⟨rfl, _, rfl, s.setPc_pc _, s.setPc_frame _⟩⟩

/-! ## The call and the return (R181, R182). -/

theorem State.call_sp (s : State) (w : Word) : (s.call w).sp = s.sp - 2 := byte_sub_two s.sp

theorem State.call_high (s : State) (w : Word) : (s.call w).memRead (stackAddr s.sp) = hiByte (s.pc - 1) := by
  obtain ⟨hne, -, -⟩ := stackAddr_ne s.sp
  rw [call, setPc_memRead, pushWord_memRead, if_neg hne, if_pos rfl]

theorem State.call_low (s : State) (w : Word) : (s.call w).memRead (stackAddr (s.sp - 1)) = loByte (s.pc - 1) := by
  rw [call, setPc_memRead, pushWord_memRead, if_pos rfl]

theorem State.call_frame (s : State) (w : Word) : Frame [.s] [] [stackAddr s.sp, stackAddr (s.sp - 1)] s (s.call w) :=
  (s.pushWord_frame _).setPc w

/-- Settles O36: a step at the call's three bytes runs it, and the call pushes both bytes of the return address. -/
theorem callPushesReturnAddress : Obligations.CallPushesReturnAddress := fun s w =>
  ⟨rfl, step_of_bytesAt (i := .jsr w) (pad := 0x00), _, rfl, rfl, s.call_sp w, s.call_high w, s.call_low w, s.call_frame w⟩

theorem State.returnFromCall_pc (s : State) :
    s.returnFromCall.pc = mkWord (s.memRead (stackAddr (s.sp + 1))) (s.memRead (stackAddr (s.sp + 2))) + 1 := by
  rw [returnFromCall, setPc_pc, pullWord_value, byte_add_two]

theorem State.returnFromCall_sp (s : State) : s.returnFromCall.sp = s.sp + 2 := byte_add_two s.sp

theorem State.returnFromCall_frame (s : State) : Frame [.s] [] [] s s.returnFromCall := s.pullWord_frame.setPc _

/-- Settles O37: a return is the pull of a 16-bit value and a write of `PC`. -/
theorem returnPullsAddressPlusOne : Obligations.ReturnPullsAddressPlusOne := fun s =>
  ⟨rfl, _, rfl, s.returnFromCall_pc, s.returnFromCall_sp, s.returnFromCall_frame⟩

/-! ## A return that follows a call at once (R183). -/

theorem State.returnFromCall_call_sp (s : State) (w v : Word) : ((s.call w).setPc v).returnFromCall.sp = s.sp := by
  rw [returnFromCall_sp, setPc_sp, call_sp, BitVec.sub_add_cancel]

/-- The two bytes that the return pulls are the two that the call pushed. -/
theorem State.returnFromCall_call_pc (s : State) (w v : Word) : ((s.call w).setPc v).returnFromCall.pc = s.pc := by
  have hlow : s.sp - 2 + 1 = s.sp - 1 := by bv_omega
  have hhigh : s.sp - 2 + 2 = s.sp := BitVec.sub_add_cancel s.sp 2
  rw [returnFromCall_pc, setPc_sp, setPc_memRead, setPc_memRead, call_sp, hlow, hhigh, call_low, call_high, mkWord_lo_hi,
    BitVec.sub_add_cancel]

/-- One frame after another. -/
theorem Frame.trans {regs : List Reg} {flags : List Flag} {stored : List Word} {s t u : State} (h : Frame regs flags stored s t)
    (h' : Frame regs flags stored t u) : Frame regs flags stored s u :=
  ⟨fun r hr => (h'.regs r hr).trans (h.regs r hr), fun f hf => (h'.flags f hf).trans (h.flags f hf),
   fun a ha => (h'.mem a ha).trans (h.mem a ha)⟩

/-- S is no exception of a frame in which it is the same again at the end. -/
theorem Frame.restored_sp {flags : List Flag} {stored : List Word} {s t : State} (h : Frame [.s] flags stored s t)
    (hsp : t.sp = s.sp) : Frame [] flags stored s t := by
  refine ⟨fun r _ => ?_, h.flags, h.mem⟩
  cases r with
  | s => exact hsp
  | a | x | y => exact h.regs _ (by decide)

theorem State.returnFromCall_call_frame (s : State) (w v : Word) :
    Frame [] [] [stackAddr s.sp, stackAddr (s.sp - 1)] s ((s.call w).setPc v).returnFromCall :=
  have hcall := (s.call_frame w).setPc v
  have hreturn := ((s.call w).setPc v).returnFromCall_frame.mono (List.Subset.refl _) (List.Subset.refl _) (List.nil_subset _)
  (hcall.trans hreturn).restored_sp (s.returnFromCall_call_sp w v)

/-- A step at the byte of `RTS` returns. -/
theorem step_of_rts {t : State} (h : t.memRead t.pc = 0x60) : step t = .next (t.setPc (t.pc + 1)).returnFromCall :=
  step_of_bytesAt (i := .rts) (pad := 0x00) (congrArg (· :: []) h)

/-- Settles O38: the call runs with `PC` three past its opcode, and that is where the return comes back to. -/
theorem callThenReturnComesBack : Obligations.CallThenReturnComesBack := by
  intro s w rest hdec
  obtain ⟨hrun, -, -⟩ := stepRunsDecodedInstruction s
  refine ⟨(s.setPc (s.pc + 3)).call w, hrun _ _ hdec, rfl, fun hrts => ⟨_, step_of_rts hrts, ?pc, ?sp, ?frame⟩⟩
  case pc => exact (s.setPc (s.pc + 3)).returnFromCall_call_pc w _
  case sp => exact (s.setPc (s.pc + 3)).returnFromCall_call_sp w _
  case frame =>
    have h := (s.setPc (s.pc + 3)).returnFromCall_call_frame w (w + 1)
    exact ⟨h.regs, h.flags, h.mem⟩

end Sys2Proof.Machine
end

section
/-! SUPPORT. The statements about BRK, RTI, the stack, the flags and NOP (spec/48_stack_flags_system.md): what the break entry leaves at
each of its three stack bytes, what its return takes from them, and what a push and a pull of one byte leave. -/

namespace Sys2Proof.Machine

/-! ## The break entry (R190). -/

theorem State.takeBreak_high (s : State) : s.takeBreak.memRead (stackAddr s.sp) = hiByte (s.pc + 1) := by
  obtain ⟨hlow, hstatus, -⟩ := stackAddr_ne s.sp
  rw [takeBreak_memRead, if_neg hstatus, if_neg hlow, if_pos rfl]

theorem State.takeBreak_low (s : State) : s.takeBreak.memRead (stackAddr (s.sp - 1)) = loByte (s.pc + 1) := by
  obtain ⟨-, -, hstatus⟩ := stackAddr_ne s.sp
  rw [takeBreak_memRead, if_neg hstatus, if_pos rfl]

theorem State.takeBreak_status (s : State) : s.takeBreak.memRead (stackAddr (s.sp - 2)) = s.p ||| 0x10 := by
  rw [takeBreak_memRead, if_pos rfl]

/-- A step at the byte of `BRK` takes the break whatever byte follows it, with `PC` at that byte. -/
theorem step_of_brk {s : State} (h : s.memRead s.pc = 0x00) : step s = exec .brk (s.setPc (s.pc + 1)) :=
  step_of_bytesAt (i := .brk) (pad := s.memRead (s.pc + 1)) (congrArg (· :: [s.memRead (s.pc + 1)]) h)

/-- Settles O39: the three bytes the break entry pushes, the fields it leaves, and its frame. -/
theorem breakEntersThroughVector : Obligations.BreakEntersThroughVector := by
  intro s pad
  obtain ⟨-, -, -, hsp, hpc, hflag⟩ := s.takeBreak_fields
  exact ⟨rfl, step_of_brk, _, rfl, s.takeBreak_high, s.takeBreak_low, s.takeBreak_status, hsp, hpc, hflag .i, s.takeBreak_frame⟩

/-! ## The return from a break (R191, R225). -/

theorem State.returnFromBreak_p (s : State) : s.returnFromBreak.p = s.memRead (stackAddr (s.sp + 1)) &&& 0xCF := rfl

theorem State.returnFromBreak_pc (s : State) :
    s.returnFromBreak.pc = mkWord (s.memRead (stackAddr (s.sp + 2))) (s.memRead (stackAddr (s.sp + 3))) := by
  rw [returnFromBreak_eq, setPc_pc, byte_add_two, byte_add_three]

theorem State.returnFromBreak_sp (s : State) : s.returnFromBreak.sp = s.sp + 3 := by
  rw [returnFromBreak_eq, setPc_sp, setSp_sp, byte_add_two s.sp, byte_add_three]

/-- `RTI` takes every flag but U and B from the pulled byte. -/
theorem State.returnFromBreak_flag_pulled (s : State) {f : Flag} (hu : f ≠ .u) (hb : f ≠ .b) :
    s.returnFromBreak.flag f = getFlag (s.memRead (stackAddr (s.sp + 1))) f := by
  rw [flag, returnFromBreak_p, getFlag_rti, if_neg hu, if_neg hb]

/-- Settles O40: the pulled status byte without U and B, the pulled address, S and the frame. -/
theorem returnFromBreakRestores : Obligations.ReturnFromBreakRestores := fun s =>
  ⟨rfl, _, rfl, s.returnFromBreak_p, s.returnFromBreak_flag (by decide), s.returnFromBreak_flag (by decide),
   fun _ => s.returnFromBreak_flag_pulled, s.returnFromBreak_pc, s.returnFromBreak_sp, s.returnFromBreak_frame⟩

/-! ## A return that follows a break (R191, R225). -/

/-- The bit that the break entry sets in the pushed status byte is one that its return clears. -/
theorem pushed_status_masked (p : Byte) : (p ||| 0x10) &&& 0xCF = p &&& 0xCF :=
  flags_ext fun f => by cases f <;> simp [getFlag, Flag.bit]

section BreakThenReturn

variable (s : State) (w : Word)

/-- The pulls of the return go back up the three stack bytes of the break entry. -/
theorem byte_sub_three_add (v : Byte) : v - 3 + 1 = v - 2 ∧ v - 3 + 2 = v - 1 ∧ v - 3 + 3 = v := by
  refine ⟨?_, ?_, BitVec.sub_add_cancel v 3⟩ <;> bv_omega

theorem State.takeBreak_sp : s.takeBreak.sp = s.sp - 3 := by
  obtain ⟨-, -, -, hsp, -⟩ := s.takeBreak_fields
  exact hsp

theorem State.returnFromBreak_takeBreak_pc : (s.takeBreak.setPc w).returnFromBreak.pc = s.pc + 1 := by
  obtain ⟨-, hlow, hhigh⟩ := byte_sub_three_add s.sp
  rw [returnFromBreak_pc, setPc_sp, setPc_memRead, setPc_memRead, takeBreak_sp, hlow, hhigh, takeBreak_low, takeBreak_high,
    mkWord_lo_hi]

theorem State.returnFromBreak_takeBreak_p : (s.takeBreak.setPc w).returnFromBreak.p = s.p &&& 0xCF := by
  obtain ⟨hstatus, -, -⟩ := byte_sub_three_add s.sp
  rw [returnFromBreak_p, setPc_sp, setPc_memRead, takeBreak_sp, hstatus, takeBreak_status, pushed_status_masked]

theorem State.returnFromBreak_takeBreak_sp : (s.takeBreak.setPc w).returnFromBreak.sp = s.sp := by
  rw [returnFromBreak_sp, setPc_sp, takeBreak_sp, BitVec.sub_add_cancel]

end BreakThenReturn

/-- Settles O41: the return pulls the three bytes that the break entry pushed, and neither writes A, X or Y. -/
theorem breakThenReturnResumes : Obligations.BreakThenReturnResumes := by
  intro s
  refine ⟨_, rfl, fun pc => ⟨_, rfl, s.returnFromBreak_takeBreak_pc pc, s.returnFromBreak_takeBreak_p pc,
    s.returnFromBreak_takeBreak_sp pc, ?_⟩⟩
  have hregs (r : Reg) (hr : r ∉ [Reg.s]) : (s.takeBreak.setPc pc).returnFromBreak.reg r = s.reg r :=
    ((s.takeBreak.setPc pc).returnFromBreak_frame.regs r hr).trans (s.takeBreak_frame.regs r hr)
  exact ⟨hregs .a (by decide), hregs .x (by decide), hregs .y (by decide)⟩

/-! ## One byte pushed and pulled (R192 to R195). -/

theorem State.push_effect (s : State) (v : Byte) :
    (s.push v).memRead (stackAddr s.sp) = v ∧ (s.push v).sp = s.sp - 1 ∧ (s.push v).pc = s.pc ∧
      Frame [.s] [] [stackAddr s.sp] s (s.push v) := by
  refine ⟨?_, s.push_sp v, s.push_pc v, s.push_frame v⟩
  rw [push_memRead, if_pos rfl]

/-- Settles O42: two pushes of one byte, a pull loaded into A, and a pull written to `P`. -/
theorem stackInstructionsMoveOneByte : Obligations.StackInstructionsMoveOneByte := fun s =>
  ⟨⟨rfl, _, rfl, s.push_effect s.a⟩,
   ⟨rfl, _, rfl, s.pull_value, s.pull.2.loadA_nz _, s.pull_sp, s.pull_pc, s.pull_loadA_frame _⟩,
   ⟨rfl, _, rfl, s.push_effect (s.p ||| 0x30)⟩,
   ⟨rfl, _, rfl, s.pull_value, s.pull_sp, s.pull_pc, (s.setSp_frame (s.sp + 1)).setP _⟩⟩

/-- A pull after a push takes the pushed byte and restores S. -/
theorem State.pull_push (s : State) (v : Byte) : (s.push v).pull.1 = v ∧ (s.push v).pull.2.sp = s.sp := by
  obtain ⟨-, -, -, -, -, hv, hsp⟩ := pullIncrementsThenReads s v
  exact ⟨hv, hsp⟩

/-- Settles O43: each pull takes the byte that the push before it stored. -/
theorem pushThenPull : Obligations.PushThenPull := by
  intro s
  obtain ⟨ha, hspa⟩ := s.pull_push s.a
  obtain ⟨hp, hspp⟩ := s.pull_push (s.p ||| 0x30)
  refine ⟨⟨_, _, rfl, rfl, ha, hspa, ?nz⟩, _, _, rfl, rfl, hp, hspp⟩
  case nz =>
    rw [ha]
    exact (s.push s.a).pull.2.loadA_nz s.a

/-! ## The flag instructions (R200 to R206) and `NOP` (R215). -/

/-- The rows of the flag instructions in R66: opcode byte, instruction, the flag written and its value. -/
def flagForms : List (Byte × Instr × Flag × Bool) :=
  [(0x18, .clc, .c, false), (0x38, .sec, .c, true), (0xD8, .cld, .d, false), (0xF8, .sed, .d, true), (0x58, .cli, .i, false),
   (0x78, .sei, .i, true), (0xB8, .clv, .v, false)]

/-- A row of a flag instruction is its opcode byte, and writes its flag. -/
structure RowWritesFlag (row : Byte × Instr × Flag × Bool) : Prop where
  bytes : encode row.2.1 = [row.1]
  exec_eq (s : State) : exec row.2.1 s = .next (s.setFlag row.2.2.1 row.2.2.2)

theorem flagForms_run : ∀ row ∈ flagForms, RowWritesFlag row := by
  simp only [flagForms, List.forall_mem_cons]
  refine ⟨?clc, ?sec, ?cld, ?sed, ?cli, ?sei, ?clv, fun _ h => nomatch h⟩ <;> exact ⟨rfl, fun _ => rfl⟩

/-- Settles O44: each row writes its flag, which is all its frame leaves open. -/
theorem flagInstructionsWriteOneBit : Obligations.FlagInstructionsWriteOneBit := by
  intro s op i f v h
  have hrow := flagForms_run _ h
  refine ⟨hrow.bytes, _, hrow.exec_eq s, ?_, s.setFlag_pc f v, s.setFlag_frame f v⟩
  rw [State.setFlag_flag, if_pos rfl]

/-- Settles O45: a step at the byte of `NOP` runs the identity with `PC` past the byte. -/
theorem nopOnlyAdvances : Obligations.NopOnlyAdvances := fun _ =>
  ⟨rfl, rfl, fun h => step_of_bytesAt (i := .nop) (pad := 0x00) (congrArg (· :: []) h)⟩

end Sys2Proof.Machine
end

section
/-! SUPPORT. The statements about the exception (spec/60_exceptions.md) and about placed programs and the end of a run
(spec/70_reset_and_hazards.md): an unmapped byte halts the step that fetches it, and a run goes on until then. -/

namespace Sys2Proof.Machine

/-! ## The unmapped bytes and the halt (R67, R220, R221). -/

/-- Settles O12: every instruction goes on by its meaning. -/
theorem everyInstructionCompletes : Obligations.EveryInstructionCompletes := by
  intro i s
  obtain ⟨F, hF, -⟩ := exec_meaning i
  exact ⟨F s, hF s⟩

theorem unmappedOpcodes_nodup : unmappedOpcodes.Nodup := by decide

/-- The unmapped bytes are the ones that decode to nothing whatever follows them: two bytes complete every row of the opcode map. -/
theorem mem_unmappedOpcodes_iff (op : Byte) : op ∈ unmappedOpcodes ↔ ∀ bs, decode (op :: bs) = .unmapped op := by
  rw [← pattern_unmapped_iff]
  constructor
  · intro hp bs
    rw [decode, hp]
  · intro h
    have hthree := decode_three op 0 0
    rw [h] at hthree
    cases hp : pattern op with
    | unmapped => rfl
    | op | opPad | opB | opW => rw [hp] at hthree; cases hthree

/-- A step at an unmapped byte halts with it, `PC` one past it. -/
theorem step_of_unmapped {s : State} (h : s.memRead s.pc ∈ unmappedOpcodes) :
    step s = .fault (.unknownOpcode (s.memRead s.pc) (s.setPc (s.pc + 1))) := by
  obtain ⟨hop, -⟩ | ⟨-, -, hstep⟩ := step_cases s
  · exact absurd h hop
  · exact hstep

/-- Settles O10: the list has no repeats, its bytes are the rows the opcode map leaves out, and only the fetch of one of them faults. -/
theorem unmappedOpcodeHalts : Obligations.UnmappedOpcodeHalts :=
  ⟨rfl, unmappedOpcodes_nodup, mem_unmappedOpcodes_iff, fun _ => step_of_unmapped,
   fun i s _ _ => exec_ne_fault i s _⟩

/-! ## A placed word (R56, R243). -/

/-- The three bytes of a placed word are at `PC`, and `PC` is where it was. -/
theorem State.withFetchWord_bytesAt (s : State) (nbits w : Nat) :
    (s.withFetchWord nbits w).bytesAt (s.withFetchWord nbits w).pc 3 = tableBytes nbits w := by
  rw [withFetchWord, storeBytes_pc]
  exact s.bytesAt_storeBytes s.pc (tableBytes nbits w) (show 3 ≤ 65536 by decide)

theorem decode_tableBytes {nbits w : Nat} {i : Instr} (h : decodeTableWord nbits w = some i) :
    ∃ rest, decode (tableBytes nbits w) = .instr i rest := by
  rw [decodeTableWord] at h
  cases hdec : decode (tableBytes nbits w) with
  | instr j rest => rw [hdec] at h; cases h; exact ⟨rest, rfl⟩
  | unmapped | truncated => rw [hdec] at h; cases h

/-- Settles O17: the bytes at `PC` are the placed ones, and a step runs what the bytes at `PC` decode to. -/
theorem placedWordIsRun : Obligations.PlacedWordIsRun := by
  intro s nbits w i h
  obtain ⟨rest, hdec⟩ := decode_tableBytes h
  obtain ⟨hrun, -, -⟩ := stepRunsDecodedInstruction (s.withFetchWord nbits w)
  rw [hrun i rest (by rw [s.withFetchWord_bytesAt, hdec]), State.withFetchWord, State.storeBytes_pc]

/-! ## The end of a run (R248). -/

/-- A run of one step more that halts does so in its first step, at an unmapped byte, or after it. -/
theorem runEnds_succ {k : Nat} {s t : State} {op : Byte} (h : RunEnds (k + 1) s op t) :
    (op ∈ unmappedOpcodes ∧ s.memRead s.pc = op ∧ t = s.setPc (s.pc + 1)) ∨ ∃ s', step s = .next s' ∧ RunEnds k s' op t := by
  obtain ⟨-, s', hstep⟩ | ⟨hop, r, hstep⟩ := stepHasTwoOutcomes s
  · exact .inr ⟨s', hstep, (run_next hstep).symm.trans h⟩
  · rw [step_of_unmapped hop] at hstep
    have hfault := Host.Outcome.fault.inj ((run_fault (step_of_unmapped hop)).symm.trans h)
    cases hfault
    exact .inl ⟨hop, rfl, rfl⟩

/-- Settles O53, by induction on the number of steps: the first step halts at an unmapped byte, or the rest of the run does. -/
theorem runEndsPastUnmappedOpcode : Obligations.RunEndsPastUnmappedOpcode := by
  intro k s t op h
  induction k generalizing s with
  | zero => exact absurd h (not_runEnds_zero s op t)
  | succ k ih =>
    obtain ⟨hop, hread, ht⟩ | ⟨s', hstep, hrest⟩ := runEnds_succ h
    · exact ⟨hop, 0, s, k.succ_pos, rfl, hread, ht⟩
    · obtain ⟨hop, j, u, hj, hrun, hu⟩ := ih s' hrest
      exact ⟨hop, j + 1, u, Nat.succ_lt_succ hj, (run_next hstep).trans hrun, hu⟩

end Sys2Proof.Machine
end
